-- ==== Sys2Proof/Word.lean ====
section
/-! DEFINITION. The bit widths of the part's buses and messages (00_scope.md 5.1, R169, R172). -/

namespace Sys2Proof

/-- A byte of the script memory or of a link message. -/
abbrev Byte := BitVec 8
/-- A 16-bit field. -/
abbrev Half := BitVec 16
/-- A memory word, lane 0 at the lowest address (00_scope.md 5.1). -/
abbrev Word := BitVec 32
/-- Byte lanes of a word: bit k is lane k (R169). -/
abbrev Lanes := BitVec 4
/-- A word address HA[20:0] of the script memory (R169). -/
abbrev WordAddr := BitVec 21

end Sys2Proof
end

