-- ==== Sys2Proof/Syntax.lean ====
section
/-! DEFINITION. The commands of the part: one constructor of Instr per row of spec/opcode_table.json.
The table gives its rows no operand fields; an event from outside carries what arrives at the pins (an access, bytes,
a time, a strap), an event inside the part carries only which of several like units takes it, and finds the rest in State. -/

namespace Sys2Proof

/-- The two hand links, and the lever claimants they serve (R86, R105). -/
inductive Link | operator | presenter
deriving DecidableEq, Repr

/-- The four head links (R138). -/
inductive Head | h0 | h1 | h2 | h3
deriving DecidableEq, Repr

/-- A byte as a serial receiver takes it: its arrival time in microseconds, its value, and whether its stop bit was
sampled low (R86, R139). -/
structure RxByte where
  time : Nat
  data : Byte
  framing : Bool
deriving DecidableEq, Repr

/-- The processor-side pins at a presentation with HCS# low (R169). -/
structure Presentation where
  ha : WordAddr
  be : Lanes
  hd : Word
  hweLow : Bool
  hoeLow : Bool
deriving DecidableEq, Repr

/-- The commands. Each docstring names the row of the table. -/
inductive Instr
  /-- POWER_ON (R176). -/
  | powerOn
  /-- POWER_GOOD (R176). -/
  | powerGood
  /-- RESET_PIN_FALL (R176): `dgs` is the strap value DGS[1:0] at the edge. -/
  | resetPinFall (dgs : BitVec 2)
  /-- MASTER_RESET (R177): RESET# has been low for `lowFor` microseconds and still is. -/
  | masterReset (lowFor : Nat)
  /-- INITIALISATION (R193): RESET# returns high. -/
  | initialisation
  /-- INIT_WALK_START (R193). -/
  | initWalkStart
  /-- INIT_END (R193) at the microsecond count `now`. -/
  | initEnd (now : Nat)
  /-- MS_TICK (R127). -/
  | msTick
  /-- FSYNC_PULSE (R128) arriving at the microsecond count `now`. -/
  | fsyncPulse (now : Nat)
  /-- SUBSTITUTE_EXPIRY (R130). -/
  | substituteExpiry
  /-- OVERDUE_DEADLINE (R134). -/
  | overdueDeadline
  /-- FRAME_STEP (R53). -/
  | frameStep
  /-- CURVE_LOAD (R122). -/
  | curveLoad
  /-- EHU_BOUNDARY (R40). -/
  | ehuBoundary
  /-- HLT_FRAME (R148) at the transmitter of head `h`. -/
  | hltFrame (h : Head)
  /-- ROW_READ_DONE (R152). -/
  | rowReadDone
  /-- MESSAGE_SENT (R164) on head link `h`. -/
  | messageSent (h : Head)
  /-- HEAD_ACK (R157): bytes received from head `h`, the last of which ends an ACK. -/
  | headAck (h : Head) (bytes : List RxByte)
  /-- STATUS_SNAPSHOT (R195). -/
  | statusSnapshot
  /-- HAND_REPORT (R91): bytes received from a hand unit, the last of which ends a report. -/
  | handReport (l : Link) (bytes : List RxByte)
  /-- TAKE (R109). -/
  | take (l : Link)
  /-- RELEASE (R111). -/
  | release (l : Link)
  /-- PAUSE (R118). -/
  | pause (l : Link)
  /-- MARK (R75). -/
  | mark (l : Link)
  /-- RETURN (R77). -/
  | returnMark (l : Link)
  /-- NEXT_STORY (R77). -/
  | nextStory (l : Link)
  /-- PREV_STORY (R77). -/
  | prevStory (l : Link)
  /-- PRESS_WINDOW_EXPIRY (R96) of button `b`. -/
  | pressWindowExpiry (l : Link) (b : Fin 8)
  /-- RATE_WINDOW_END (R99). -/
  | rateWindowEnd (l : Link)
  /-- SILENCE_TIMER_EXPIRY (R100). -/
  | silenceTimerExpiry (l : Link)
  /-- SETTLE_EXPIRY (R7). -/
  | settleExpiry
  /-- WALK_READ_DONE (R10). -/
  | walkReadDone
  /-- STRUCTURE_WRITE (R6): a processor write with structure lanes, presented whole. -/
  | structureWrite (ha : WordAddr) (be : Lanes) (data : Word)
  /-- CONTENT_WRITE (R35): a processor write with content lanes, presented whole. -/
  | contentWrite (ha : WordAddr) (be : Lanes) (data : Word)
  /-- SPILL_RETRY (R42). -/
  | spillRetry
  /-- COMMIT_WRITE (R39): a processor write with the commit lane, presented whole. -/
  | commitWrite (ha : WordAddr) (be : Lanes) (data : Word)
  /-- DROPPED_WRITE (R175): a processor write to the report window, presented whole. -/
  | droppedWrite (ha : WordAddr) (be : Lanes) (data : Word)
  /-- PROCESSOR_WRITE_DONE (R170). -/
  | processorWriteDone
  /-- PROCESSOR_READ_DONE (R171). -/
  | processorReadDone
  /-- ACCESS_WITHDRAWN (R169): HCS# rises before READY. -/
  | accessWithdrawn
  /-- ATTENTION_READ (R200). -/
  | attentionRead
  /-- CONSUME_WRITE (R204). -/
  | consumeWrite
  /-- RUN_RESET (R189): with `helmLate`, HELM takes its share after a frame step that arrives together (R71). -/
  | runReset (helmLate : Bool)
  /-- RUN_RESET_DONE (R190). -/
  | runResetDone
  /-- SRU_WRITE_DONE (R203). -/
  | sruWriteDone
  /-- RELEASE_WRITE_DONE (R38). -/
  | releaseWriteDone
  /-- GUARD_READ_DONE (R31). -/
  | guardReadDone
  /-- SETTING_WRITE (R186). -/
  | settingWrite
  /-- GUARD_BAND_WRITE (R30). -/
  | guardBandWrite
  /-- NEAR_FULL_THRESHOLD_WRITE (R45). -/
  | nearFullThresholdWrite
  /-- HELM_MODE_WRITE (R116). -/
  | helmModeWrite
  /-- LEVEL_WRITE (R115). -/
  | levelWrite
  /-- AUTO_ENABLE_WRITE (R110). -/
  | autoEnableWrite
  /-- CLAIMANT_SETTING_WRITE (R121). -/
  | claimantSettingWrite
  /-- ROUTE_WRITE (R144). -/
  | routeWrite
  /-- CARD_WRITE (R161). -/
  | cardWrite
  /-- ATTENTION_MASK_WRITE (R201). -/
  | attentionMaskWrite
  /-- INTERRUPT_ENABLE_WRITE (R201). -/
  | interruptEnableWrite
  /-- BYTE_GAP (R88): bytes received from a hand unit, the last of which arrives late. -/
  | byteGap (l : Link) (bytes : List RxByte)
  /-- FRAMING_ERROR (R88): bytes received from a hand unit, the last of which has a framing error. -/
  | framingError (l : Link) (bytes : List RxByte)
  /-- ACCESS_PRESENTED (R169). -/
  | accessPresented (p : Presentation)
  /-- HCS_RISES (R169): HCS# rises after READY. -/
  | hcsRises
  /-- RESET_PIN_RISE (R176): RESET# returns high after `lowFor` microseconds. -/
  | resetPinRise (lowFor : Nat)
deriving DecidableEq, Repr

end Sys2Proof
end

