-- ==== Sys2Proof/Config.lean ====
section
/-! DEFINITION. What the spec fixes for the part: capacities and the places of the memory windows.
The spec leaves no value free: no choice of an implementation stands here. -/

namespace Sys2Proof.Config

/-- Rows a map bank holds (R3). -/
def bankRows : Nat := 8192
/-- Line slots of the line store (R1, R178). -/
def slotCount : Nat := 65024
/-- The link value that ends a chain (R2). -/
def chainEnd : Nat := 0xFFFF
/-- Story entries of the rundown (R1). -/
def entryCount : Nat := 256
/-- Entries the hold queue holds (R34). -/
def holdCapacity : Nat := 64
/-- Slots the on-air list holds (R29). -/
def onAirCapacity : Nat := 63
/-- Marks the mark list holds (R73). -/
def markCapacity : Nat := 8
/-- Records the event ring holds (R202). -/
def ringRecords : Nat := 32
/-- Position units of one row (00_scope.md 5.3). -/
def rowUnits : Nat := 4096
/-- The value at which the interval counters hold (R128). -/
def intervalHold : Nat := 65535
/-- Cost of a FRAME message in the budget (R140). -/
def frameCost : Nat := 12
/-- Cost of a ROW message besides its text (R141). -/
def rowCost : Nat := 6
/-- Microseconds after which a byte breaks a partial hand report (R88). -/
def handGap : Nat := 2000
/-- Microseconds after which a byte breaks a partial ACK (R139). -/
def ackGap : Nat := 100
/-- Discards after which a walk is offered whatever rewalk says (R18). -/
def maxDiscards : Nat := 4
/-- Processor grants in a row after which a waiting part access goes next (R173). -/
def fairnessLimit : Nat := 8

/-! Word addresses (byte address divided by 4) of the windows (R170, R178 to R182). -/

/-- First word of the report window, and the status block (R182). -/
def reportBase : Nat := 0x1000 / 4
/-- Words of the status block (R196). -/
def statusWords : Nat := 32
/-- The attention word (R182). -/
def attentionWord : Nat := 0x1080 / 4
/-- The produce index (R182). -/
def produceWord : Nat := 0x1084 / 4
/-- The consume index (R175, R182). -/
def consumeWord : Nat := 0x1088 / 4
/-- Slot 0 of the event ring (R182). -/
def ringBase : Nat := 0x1100 / 4
/-- First word of the rundown (R178). -/
def rundownBase : Nat := 0x2000 / 4
/-- First word of the general window (R170). -/
def generalBase : Nat := 0x2800 / 4
/-- First word of the line store (R178). -/
def lineBase : Nat := 0x10000 / 4
/-- Words of a line slot (R178). -/
def slotWords : Nat := 32

end Sys2Proof.Config
end

