-- ==== Sys2Proof/Machine/Blocks.lean ====
section
/-! DEFINITION. The state each block of the part holds (00_scope.md 3), as plain data, and the values it takes at a
master reset (R4, R44, R70, R104, R125, R137, R166, R173, R174, R192). -/

namespace Sys2Proof.Machine

/-- One value for each hand link. -/
structure Pair (α : Type) where
  operator : α
  presenter : α
deriving DecidableEq, Repr

/-- One value for each head link. -/
structure Quad (α : Type) where
  h0 : α
  h1 : α
  h2 : α
  h3 : α
deriving DecidableEq, Repr

/-- The value of one link. -/
def Pair.get {α : Type} (p : Pair α) : Link → α
  | .operator => p.operator
  | .presenter => p.presenter

/-- The pair with the value of one link replaced. -/
def Pair.set {α : Type} (p : Pair α) (l : Link) (x : α) : Pair α :=
  match l with
  | .operator => { p with operator := x }
  | .presenter => { p with presenter := x }

/-- The value of one head. -/
def Quad.get {α : Type} (q : Quad α) : Head → α
  | .h0 => q.h0
  | .h1 => q.h1
  | .h2 => q.h2
  | .h3 => q.h3

/-- The four values with that of one head replaced. -/
def Quad.set {α : Type} (q : Quad α) (h : Head) (x : α) : Quad α :=
  match h with
  | .h0 => { q with h0 := x }
  | .h1 => { q with h1 := x }
  | .h2 => { q with h2 := x }
  | .h3 => { q with h3 := x }

/-- A function applied to each of four values. -/
def Quad.map {α β : Type} (q : Quad α) (f : α → β) : Quad β :=
  ⟨f q.h0, f q.h1, f q.h2, f q.h3⟩

/-- Some value of the four satisfies the test. -/
def Quad.any {α : Type} (q : Quad α) (f : α → Bool) : Bool :=
  f q.h0 || f q.h1 || f q.h2 || f q.h3

/-! ## Claimants and settings -/

/-- The parties that may hold the helm (R105). -/
inductive Claimant | operator | presenter | auto
deriving DecidableEq, Repr

/-- The states of a claimant (R105). -/
inductive ClaimState | idle | pending | holding | suspended
deriving DecidableEq, Repr

/-- The actions a button may carry (R94). -/
inductive Action | none | take | release | pause | mark | returnMark | nextStory | prevStory
deriving DecidableEq, Repr

/-- The edges a button entry may name (R94). -/
inductive Edge | press | lift | both
deriving DecidableEq, Repr

/-- The qualifier a PAUSE action carries (R97). -/
inductive Qualifier | toggle | set | clear
deriving DecidableEq, Repr

/-- An entry of a button map (R94). -/
structure ButtonEntry where
  action : Action
  edge : Edge
  count : Nat
deriving DecidableEq, Repr

/-- The eight claimant settings of a lever claimant (R121). -/
structure ClaimantSettings where
  curveB : Bool
  deadZone : Nat
  scale : Nat
  claimOnMove : Bool
  debounce : Nat
  pressWindow : Nat
  silenceLimit : Nat
  buttons : List ButtonEntry
deriving DecidableEq, Repr

/-- A new value of one claimant setting, each button map entry being a setting of its own (R121). -/
inductive ClaimantUpdate
  | curve (b : Bool)
  | deadZone (z : Nat)
  | scale (s : Nat)
  | claimOnMove (on : Bool)
  | debounce (k : Nat)
  | pressWindow (w : Nat)
  | silenceLimit (s : Nat)
  | button (b : Nat) (e : ButtonEntry)
deriving DecidableEq, Repr

/-- The edit modes (R33). -/
inductive EditMode | pass | batch | shelter
deriving DecidableEq, Repr

/-- The helm modes (R107). -/
inductive HelmMode | nest | single
deriving DecidableEq, Repr

/-- The sources a route may name (R144). -/
inductive Source | off | live | card1 | card2 | card3 | test
deriving DecidableEq, Repr

/-- A route entry (R144). -/
structure Route where
  source : Source
  rows : Nat
  readRow : Nat
  budget : Nat
  stall : Nat
  mirror : Bool
  inject : Nat
deriving DecidableEq, Repr

/-- The working settings of the SRU (R186, R188). The claimant settings are held by HELM, in use or staged (R121). -/
structure Settings where
  settle : Nat
  editMode : EditMode
  guardBand : Nat
  holdLimit : Nat
  nearFull : Nat
  speedLimit : Nat
  accel : Nat
  stopRate : Nat
  runout : Nat
  nominal : Nat
  helmMode : HelmMode
  levelOperator : Nat
  levelPresenter : Nat
  levelAuto : Nat
  autoEnable : Bool
  autoSpeed : Int
  mask : BitVec 12
  intEnable : Bool
  curveA : List Nat
  curveB : List Nat
  routes : Quad Route
  /-- An inject count has been written since the transmitter's previous boundary (R164). -/
  injectWritten : Quad Bool
deriving DecidableEq, Repr

/-- The reset contents of curve A (R122). -/
def resetCurveA : List Nat :=
  [0, 40, 96, 160, 240, 340, 460, 600, 760, 940, 1140, 1360, 1600, 1860, 2140, 2440, 2760]

/-- The reset contents of curve B (R122). -/
def resetCurveB : List Nat :=
  [0, 20, 48, 80, 120, 170, 230, 300, 380, 470, 570, 680, 800, 930, 1070, 1220, 1380]

/-- The reset button map of a claimant (R94). -/
def resetButtons : Link → List ButtonEntry
  | .operator =>
    [⟨.take, .press, 1⟩, ⟨.release, .press, 1⟩, ⟨.pause, .press, 1⟩, ⟨.mark, .press, 1⟩,
     ⟨.returnMark, .press, 1⟩, ⟨.nextStory, .press, 1⟩, ⟨.prevStory, .press, 1⟩, ⟨.none, .press, 1⟩]
  | .presenter =>
    [⟨.pause, .press, 1⟩, ⟨.mark, .press, 2⟩, ⟨.returnMark, .press, 2⟩, ⟨.nextStory, .press, 1⟩,
     ⟨.prevStory, .press, 1⟩, ⟨.take, .press, 2⟩, ⟨.release, .press, 2⟩, ⟨.none, .press, 1⟩]

/-- The reset claimant settings (R121). -/
def resetClaimant : Link → ClaimantSettings
  | .operator => ⟨true, 3, 16, false, 2, 400, 20, resetButtons .operator⟩
  | .presenter => ⟨false, 3, 16, true, 2, 400, 30, resetButtons .presenter⟩

/-- The reset route of a head (R144). -/
def resetRoute : Head → Route
  | .h0 => ⟨.live, 12, 3, 4096, 10, false, 0⟩
  | _ => ⟨.off, 12, 3, 4096, 10, false, 0⟩

/-- The reset working settings (R192, R194). -/
def resetSettings : Settings where
  settle := 40
  editMode := .batch
  guardBand := 2
  holdLimit := 30
  nearFull := 48
  speedLimit := 8192
  accel := 64
  stopRate := 256
  runout := 20
  nominal := 20000
  helmMode := .nest
  levelOperator := 3
  levelPresenter := 2
  levelAuto := 1
  autoEnable := false
  autoSpeed := 0
  mask := 0xFFF
  intEnable := false
  curveA := resetCurveA
  curveB := resetCurveB
  routes := ⟨resetRoute .h0, resetRoute .h1, resetRoute .h2, resetRoute .h3⟩
  injectWritten := ⟨false, false, false, false⟩

/-! ## Rundown walker (RWK) -/

/-- The kinds of a placed row (R3). -/
inductive RowKind | text | cue | gap | stop
deriving DecidableEq, Repr

/-- A row of the line map (R3). -/
structure Row where
  slot : Nat
  entry : Nat
  story : Nat
  kind : RowKind
  first : Bool
deriving DecidableEq, Repr

/-- A map bank with the summary of the walk that filled it (R3, R15). -/
structure Bank where
  rows : List Row
  stories : Nat
  faults : Nat
  discards : Nat
deriving DecidableEq, Repr

/-- A bank of 0 rows. -/
def emptyBank : Bank := ⟨[], 0, 0, 0⟩

/-- The phases of the walker (R6). -/
inductive WalkPhase | idle | walking | offered
deriving DecidableEq, Repr

/-- The settle timer: stopped, with the ticks left until it expires, or elapsed (R7). At `running 0` its expiry has come
and waits to be taken. -/
inductive SettleTimer
  | stopped
  | running (left : Nat)
  | elapsed
deriving DecidableEq, Repr

/-- The read the walk needs next (R10). -/
inductive WalkRead
  /-- Word 0 of rundown entry `i`. -/
  | entryWord (i : Nat)
  /-- Word 1 of entry `i`, whose word 0 gave the story and its first slot. -/
  | entryFlags (i story slot : Nat)
  /-- Header word 0 of `slot` in the chain of entry `i`; `placed` says the story has a row already. -/
  | slotWord (i story slot : Nat) (placed : Bool)
  /-- Header word 1 of `slot`, whose word 0 gave its next slot. -/
  | slotKind (i story slot next : Nat) (placed : Bool)
deriving DecidableEq, Repr

/-- The rundown walker (R3 to R18). -/
structure Walker where
  phase : WalkPhase
  mapStale : Bool
  rewalk : Bool
  settle : SettleTimer
  discards : Nat
  /-- The discarded-walk counter (R17). -/
  discarded : Word
  /-- The seen-bitmap (R9). -/
  seen : BitVec 65024
  /-- The building bank, and in OFFERED the offered map. -/
  bank : Bank
  /-- The read waiting or in progress. -/
  read : Option WalkRead
deriving DecidableEq, Repr

/-- The walker after a master reset (R4). -/
def resetWalker : Walker := ⟨.idle, false, false, .stopped, 0, 0, 0, emptyBank, none⟩

/-! ## Edit hold unit (EHU) -/

/-- The states of a hold entry (R34). -/
inductive HoldState | held | marked | releasing
deriving DecidableEq, Repr

/-- A hold entry (R34). -/
structure HoldEntry where
  wa : Nat
  mask : Lanes
  data : Word
  slot : Nat
  arrival : Word
  state : HoldState
deriving DecidableEq, Repr

/-- A slot of the on-air list with the rundown index of its row (R29). -/
structure OnAir where
  slot : Nat
  entry : Nat
deriving DecidableEq, Repr

/-- The edit hold unit (R29 to R45). -/
structure Ehu where
  /-- The hold queue, the oldest entry first. -/
  queue : List HoldEntry
  onAir : List OnAir
  guardSet : BitVec 256
  nearFull : Bool
  /-- The spill counter (R42). -/
  spills : Word
  /-- The expiry counter (R40). -/
  expiries : Word
deriving DecidableEq, Repr

/-- The edit hold unit after a master reset (R32, R44). -/
def resetEhu : Ehu := ⟨[], [], 0, false, 0, 0⟩

/-! ## Scroll engine (SCE) -/

/-- A mark (R73). -/
structure Mark where
  slot : Nat
  fraction : Nat
  owner : Link
  frame : Half
deriving DecidableEq, Repr

/-- What the jump request register may hold besides none (R77). -/
inductive Jump | returnMark | nextStory | prevStory
deriving DecidableEq, Repr

/-- The scroll engine (R49 to R71, R73, R77). -/
structure Sce where
  /-- The position P (R49). -/
  pos : Nat
  /-- The speed v (R50). -/
  speed : Int
  /-- The active bank. -/
  active : Bank
  jump : Option Jump
  /-- The mark list, the oldest first. -/
  marks : List Mark
  runoutFlag : Bool
  /-- The stop-reached flag with its slot (R61). -/
  stopReached : Option Nat
  speedLimit : Nat
  accel : Nat
  stopRate : Nat
  runout : Nat
  /-- The relink counter (R20). -/
  relinks : Word
deriving DecidableEq, Repr

/-- The scroll engine after a master reset (R70). -/
def resetSce : Sce where
  pos := 0
  speed := 0
  active := emptyBank
  jump := none
  marks := []
  runoutFlag := false
  stopReached := none
  speedLimit := 8192
  accel := 64
  stopRate := 256
  runout := 20
  relinks := 0

/-! ## Hand link receivers (HLR-O, HLR-P) -/

/-- The health of a hand link (R98). -/
inductive LinkState | absent | suspect | active | lost
deriving DecidableEq, Repr

/-- One button of a hand unit: debounced state, agree count, press counter and press window (R93, R96). -/
structure Button where
  pressed : Bool
  agree : Nat
  presses : Nat
  /-- The ticks left of a running press window; at 0 its expiry has come and waits to be taken. -/
  window : Option Nat
deriving DecidableEq, Repr

/-- A button released with nothing counted. -/
def resetButton : Button := ⟨false, 0, 0, none⟩

/-- An action that has fired and waits to be taken by the block it acts on (R97). -/
structure Fired where
  action : Action
  qualifier : Qualifier
  /-- The link was ACTIVE at the moment it fired (R74). -/
  linkActive : Bool
deriving DecidableEq, Repr

/-- A hand link receiver (R88 to R103). -/
structure Hlr where
  /-- The bytes of the report being collected with their arrival times; none in HUNT (R88). -/
  parser : List (Nat × Byte)
  /-- The sequence copy, if known (R90). -/
  seq : Option Byte
  /-- The held deflection (R92). -/
  deflection : Int
  buttons : List Button
  link : LinkState
  /-- Valid reports in the current rate window (R99). -/
  rateCount : Nat
  /-- Ticks left of the rate window, none while the timer is stopped. -/
  rateTimer : Option Nat
  /-- A window end has come and waits to be taken. -/
  rateDue : Bool
  /-- The silence counter (R100). -/
  silence : Nat
  /-- Ticks left of the 50 ms silence timer, none while it is stopped. -/
  silenceTimer : Option Nat
  /-- An expiry of the silence timer has come and waits to be taken. -/
  silenceDue : Bool
  /-- The check-error counter (R89). -/
  checkErrors : Word
  /-- The sequence-gap counter (R90). -/
  seqGaps : Word
  /-- Actions fired and not yet taken, in the order they fired. -/
  fired : List Fired
  /-- The bytes of the last status message on the line to the unit (R103). -/
  tx : List Byte
deriving DecidableEq, Repr

/-- A hand link receiver after a master reset (R104). -/
def resetHlr : Hlr where
  parser := []
  seq := none
  deflection := 0
  buttons := List.replicate 8 resetButton
  link := .absent
  rateCount := 0
  rateTimer := none
  rateDue := false
  silence := 0
  silenceTimer := none
  silenceDue := false
  checkErrors := 0
  seqGaps := 0
  fired := []
  tx := []

/-! ## Helm arbiter (HELM) -/

/-- The helm arbiter (R105 to R122). A claimant is HOLDING when it is the holder, SUSPENDED when on the stack, PENDING
when in the set, and IDLE otherwise. -/
structure Helm where
  holder : Option Claimant
  /-- The suspended stack, the most recently suspended first. -/
  stack : List Claimant
  /-- The pending set. -/
  waiting : List Claimant
  paused : Bool
  coast : Bool
  /-- A PAUSE CLEAR of the holder has been taken together with the step to come, and before it (R118). DEDUCED (assumption 35). -/
  cleared : Bool
  /-- The last deflection handed by each receiver (R108). -/
  lastDeflection : Pair Int
  /-- The claimant settings in use (R121). -/
  inUse : Pair ClaimantSettings
  /-- The staged values, at most one for each setting (R121). -/
  staged : Pair (List ClaimantUpdate)
  /-- The curves as loaded at the last boundary (R122). -/
  curveA : List Nat
  curveB : List Nat
  /-- The refused-claims counter (R109). -/
  refused : Word
deriving DecidableEq, Repr

/-- HELM after a master reset (R125). -/
def resetHelm : Helm where
  holder := none
  stack := []
  waiting := []
  paused := false
  coast := false
  cleared := false
  lastDeflection := ⟨0, 0⟩
  inUse := ⟨resetClaimant .operator, resetClaimant .presenter⟩
  staged := ⟨[], []⟩
  curveA := resetCurveA
  curveB := resetCurveB
  refused := 0

/-! ## Frame timing unit (FTU) -/

/-- The sync states (R130 to R134). -/
inductive SyncState | substitute | acquiring | locked
deriving DecidableEq, Repr

/-- The blocks to which the last boundary has been handed and that have not yet taken it (R135). -/
structure BoundaryDue where
  helm : Bool
  ehu : Bool
  sce : Bool
  hlt : Quad Bool
  sru : Bool
deriving DecidableEq, Repr

/-- The frame timing unit (R127 to R135). -/
structure Ftu where
  /-- The microsecond count (R127). -/
  micros : Nat
  /-- The microsecond count at which the next millisecond tick falls (R127). DESIGN CHOICE (assumption 6). -/
  tickAt : Nat
  /-- The millisecond tick count (R127). -/
  tick : Word
  sync : SyncState
  goodCount : Nat
  lastPeriod : Nat
  glitches : Word
  frame : Half
  /-- N in use (R129). -/
  nominal : Nat
  /-- The last boundary time. -/
  lastBoundary : Nat
  /-- The arrival time of the previous pulse. -/
  prevPulse : Nat
  /-- The time at which the substitute timer expires, none while it is stopped. -/
  substituteAt : Option Nat
  due : BoundaryDue
deriving DecidableEq, Repr

/-- No block has a boundary to take. -/
def noneDue : BoundaryDue := ⟨false, false, false, ⟨false, false, false, false⟩, false⟩

/-- The frame timing unit after a master reset (R137). -/
def resetFtu : Ftu where
  micros := 0
  tickAt := 1000
  tick := 0
  sync := .substitute
  goodCount := 0
  lastPeriod := 0
  glitches := 0
  frame := 0
  nominal := 20000
  lastBoundary := 0
  prevPulse := 0
  substituteAt := none
  due := noneDue

/-! ## Head link transmitters (HLT0 to HLT3) -/

/-- An entry of a view table: its slot or NONE, and whether it is SENT or STALE (R147). -/
structure ViewEntry where
  slot : Option Nat
  sent : Bool
deriving DecidableEq, Repr

/-- The states of a head (R156). -/
inductive HeadState | silent | up | stalled
deriving DecidableEq, Repr

/-- A message built for a head, without its check byte; a ROW names its position (R138, R185). -/
structure HeadMsg where
  position : Option Nat
  body : List Byte
deriving DecidableEq, Repr

/-- A message on a head's line, with the check byte it ends in (R164). -/
structure Sending where
  position : Option Nat
  bytes : List Byte
  injected : Bool
deriving DecidableEq, Repr

/-- Where a ROW under construction takes its content from (R141, R160). -/
inductive RowSource
  | slot (n : Nat) (kind : RowKind) (first : Bool)
  | card (c r : Nat)
deriving DecidableEq, Repr

/-- What a ROW under construction waits for: its header or length word, or its next text word (R152, R154). -/
inductive BuildStage
  | header
  | text (style : Byte) (length : Nat) (words : List Word)
deriving DecidableEq, Repr

/-- A ROW under construction (R152). -/
structure RowBuild where
  position : Nat
  source : RowSource
  stage : BuildStage
deriving DecidableEq, Repr

/-- A head link transmitter (R144 to R165). -/
structure Hlt where
  /-- The route entry in use. -/
  route : Route
  view : List ViewEntry
  /-- A full stale has been made since the last boundary and applies to the next frame (R157, R167). DEDUCED (assumption 30). -/
  staleDue : Bool
  /-- The T of the last FRAME sent (R147). -/
  prevTop : Int
  state : HeadState
  /-- The last acknowledged frame, unless forgotten. -/
  lastAck : Option Half
  /-- The copy of the rejected count, if known. -/
  rejected : Option Byte
  /-- The inject remaining count (R164). -/
  inject : Nat
  /-- The inject count last loaded. -/
  injectLoaded : Nat
  /-- The budget left of the frame. -/
  budgetLeft : Nat
  /-- The positions found STALE at the boundary that the building of rows has not come to, in order. -/
  todo : List Nat
  build : Option RowBuild
  sending : Option Sending
  queued : List HeadMsg
  /-- The bytes of the ACK being collected with their arrival times (R139). -/
  ackParser : List (Nat × Byte)
deriving DecidableEq, Repr

/-- A head link transmitter after a master reset (R166). DEDUCED (assumption 20). -/
def resetHlt (h : Head) : Hlt where
  route := resetRoute h
  view := List.replicate 33 ⟨none, false⟩
  staleDue := false
  prevTop := 0
  state := .silent
  lastAck := none
  rejected := none
  inject := 0
  injectLoaded := 0
  budgetLeft := 0
  todo := []
  build := none
  sending := none
  queued := []
  ackParser := []

/-! ## Settings and report unit (SRU) -/

/-- What started a reset (R183). -/
inductive ResetCause | power | pin | run
deriving DecidableEq, Repr

/-- Why a chain ended in a fault (R12). -/
inductive LinkFault | badIndex | revisit | foreign
deriving DecidableEq, Repr

/-- Why the holder changed (R117). -/
inductive HelmCause | claim | level | mode | release | linkLost | autoOff | runReset
deriving DecidableEq, Repr

/-- The events of the part with their parameters (R183). -/
inductive Event
  | reset (cause : ResetCause)
  | relinkDone (rows stories faults discards : Nat)
  | dupStory (story entry : Nat)
  | linkFault (story slot : Nat) (cause : LinkFault)
  | mapFull (story entry slot : Nat)
  | anchorMoved (old found index : Nat)
  | anchorLost (old row : Nat)
  | markLost (slot : Nat) (owner : Link) (frame : Half)
  | markDropped (slot : Nat) (owner : Link) (frame : Half)
  | helmChange (old new : Option Claimant) (cause : HelmCause)
  | linkState (link : Link) (new : LinkState)
  | stopReached (row slot story : Nat)
  | topStop (slot : Nat) (speed : Int)
  | endStop (slot : Nat) (speed : Int)
  | runout (remaining row threshold : Nat)
  | holdSpill (slot count : Nat)
  | holdExpired (slot count : Nat)
  | holdNear (count threshold : Nat)
  | settingClamped (offset : Nat) (effective : Half) (written : Word)
  | syncState (new : SyncState) (nominal period : Nat)
  | headState (head : Head) (new : HeadState) (lag : Nat)
  | routeDemoted (head : Head) (written : Word)
  | injectDone (head : Head) (count : Nat)
deriving DecidableEq, Repr

/-- An accepted event that waits to be written into the ring: its record number, and what R202 forms at once. -/
structure Record where
  num : Byte
  event : Event
  frame : Half
  tick : Word
deriving DecidableEq, Repr

/-- The accesses of the SRU (R174). -/
inductive SruAccess | initWord | record | attention | runResetZero | status
deriving DecidableEq, Repr

/-- A status write in progress: the snapshot's words and the next to be performed (R196). -/
structure StatusWrite where
  words : List Word
  next : Nat
deriving DecidableEq, Repr

/-- The run-reset state (R189). -/
inductive RunState | idle | running
deriving DecidableEq, Repr

/-- The settings and report unit (R186 to R204). -/
structure Sru where
  set : Settings
  /-- The attention latch and its fresh set, bit per group (R198, R199). -/
  latch : BitVec 12
  fresh : BitVec 12
  /-- An attention write is requested. -/
  attnReq : Bool
  /-- The produce index and the consume copy (R202). -/
  produce : Byte
  consume : Byte
  /-- The records awaiting writing, the oldest first. -/
  records : List Record
  /-- The words of the oldest record performed; at 4 its produce index is next (R203). -/
  recordWord : Nat
  status : Option StatusWrite
  /-- The access requested, waiting or in progress. -/
  request : Option SruAccess
  runState : RunState
  /-- Entries of the hold queue present at the start of the run reset and not yet released (R43). -/
  resetLeft : Nat
  /-- HELM has its share of the run reset still to take (R71). -/
  helmShare : Bool
  /-- RESET has been raised and the write of 0 to the run-reset word is prepared (R190). -/
  zeroDue : Bool
deriving DecidableEq, Repr

/-- The settings and report unit after a master reset (R192). -/
def resetSru : Sru where
  set := resetSettings
  latch := 0
  fresh := 0
  attnReq := false
  produce := 0
  consume := 0
  records := []
  recordWord := 0
  status := none
  request := none
  runState := .idle
  resetLeft := 0
  helmShare := false
  zeroDue := false

/-! ## Pass-through port and arbiter (PTP) -/

/-- A processor access as presented and latched (R169). -/
structure Access where
  write : Bool
  ha : WordAddr
  be : Lanes
  data : Word
deriving DecidableEq, Repr

/-- How far a taken access has been carried (R169). In `spill`, `freed` says a release has been performed since (R42). -/
inductive Stage
  | waiting
  | onPort
  | spill (freed : Bool)
  | complete
deriving DecidableEq, Repr

/-- The processor access taken, with the lanes routed to memory (R169, R170). -/
structure Carried where
  acc : Access
  lanes : Lanes
  stage : Stage
  /-- HCS# has risen before READY. -/
  withdrawn : Bool
deriving DecidableEq, Repr

/-- A performed access that the SRU or a transmitter has still to see (R170, R171). -/
inductive Handover
  /-- A write to the assigned word at this control-window offset left this word in memory (R186). -/
  | setting (offset : Nat) (word : Word)
  /-- A write into the area of row `r` of card `c` (R161). -/
  | card (c r : Nat)
  /-- A write of the consume-index word left this word in memory (R204). -/
  | consume (word : Word)
  /-- A read of the attention word returned this value (R200). -/
  | attention (word : Word)
deriving DecidableEq, Repr

/-- The processor side of the pass-through port (R169 to R171, R175). -/
structure Ptp where
  carried : Option Carried
  /-- A presentation that stands at the pins and has not been taken. -/
  presented : Option Access
  /-- The word last driven on HD for a read. -/
  readData : Word
  /-- The dropped-writes counter (R175). -/
  dropped : Word
  handovers : List Handover
deriving DecidableEq, Repr

/-- The pass-through port after a master reset. -/
def resetPtp : Ptp := ⟨none, none, 0, 0, []⟩

/-- The part requesters (R174). -/
inductive Requester | sru | ehu | hlt (h : Head) | rwk
deriving DecidableEq, Repr

/-- Whose access holds the port. -/
inductive Owner | processor | part (r : Requester)
deriving DecidableEq, Repr

/-- The access in progress at the memory port (R172). -/
structure PortAccess where
  owner : Owner
  write : Bool
  wa : Nat
  lanes : Lanes
  data : Word
  /-- Its requester has been reset or has abandoned it: it still completes at the memory (R172). -/
  orphan : Bool
deriving DecidableEq, Repr

/-- The memory port and its arbiter (R173, R174). -/
structure Port where
  busy : Option PortAccess
  fairness : Nat
  /-- The part requester last granted. -/
  pointer : Requester
deriving DecidableEq, Repr

/-- The arbiter after a master reset (R173, R174). -/
def resetPort : Port := ⟨none, 0, .rwk⟩

/-! ## Reset control -/

/-- How far the part has come from a master reset (R176, R193). -/
inductive Phase
  /-- The master reset holds. -/
  | held
  /-- The windows are written and the rundown flags read. -/
  | windows
  /-- The RESET record is written. -/
  | firstRecord
  /-- The first attention write is made. -/
  | firstAttention
  /-- The first attention write has been performed. -/
  | ending
  /-- Initialisation has ended. -/
  | running
deriving DecidableEq, Repr

/-- The reset pin, the supply and the progress of initialisation (R176, R193). -/
structure Rst where
  phase : Phase
  supplyGood : Bool
  /-- RESET# is low. -/
  pinLow : Bool
  /-- The de-glitch width F, in microseconds, of a low pulse that has not yet begun a master reset. -/
  judging : Option Nat
  cause : ResetCause
  /-- Window words that initialisation has written. -/
  initWord : Nat
  /-- Rundown flags words that initialisation has read. -/
  guardNext : Nat
deriving DecidableEq, Repr

/-- The reset control as the power-on detector leaves it (R176). DESIGN CHOICE (assumption 4). -/
def resetRst : Rst := ⟨.held, false, false, none, .power, 0, 0⟩

end Sys2Proof.Machine
end

