-- ==== Sys2Proof/Machine/State.lean ====
section
/-! DEFINITION. The whole state of the part, its reset value, and the reasons a step could stop. -/

namespace Sys2Proof.Machine

/-- The script memory: (byte address, byte), addresses strictly rising, no byte equal to an unlisted one. -/
abbrev Memory := List Host.Cell

/-- The state of the part and the commands that wait for it, the first to be taken first. -/
structure State where
  pending : List Instr
  mem : Memory
  rst : Rst
  ptp : Ptp
  port : Port
  rwk : Walker
  ehu : Ehu
  sce : Sce
  hlr : Pair Hlr
  helm : Helm
  ftu : Ftu
  hlt : Quad Hlt
  sru : Sru
deriving DecidableEq, Repr

/-- The part as the power-on detector holds it in master reset, with nothing written to the script memory (R4, R44, R70,
R104, R125, R137, R166, R173, R176, R192). DESIGN CHOICE where the spec gives no value (assumptions 4, 5). -/
def State.reset : State where
  pending := []
  mem := []
  rst := resetRst
  ptp := resetPtp
  port := resetPort
  rwk := resetWalker
  ehu := resetEhu
  sce := resetSce
  hlr := ⟨resetHlr, resetHlr⟩
  helm := resetHelm
  ftu := resetFtu
  hlt := ⟨resetHlt .h0, resetHlt .h1, resetHlt .h2, resetHlt .h3⟩
  sru := resetSru

/-! ## Updates of one block
Every operation writes the state through these; Laws/State.lean says what each leaves alone. -/

/-- The state with `pending` replaced. -/
def State.withPending (s : State) (x : List Instr) : State := { s with pending := x }
/-- The state with `mem` replaced. -/
def State.withMem (s : State) (x : Memory) : State := { s with mem := x }
/-- The state with `rst` replaced. -/
def State.withRst (s : State) (x : Rst) : State := { s with rst := x }
/-- The state with `ptp` replaced. -/
def State.withPtp (s : State) (x : Ptp) : State := { s with ptp := x }
/-- The state with `port` replaced. -/
def State.withPort (s : State) (x : Port) : State := { s with port := x }
/-- The state with `rwk` replaced. -/
def State.withRwk (s : State) (x : Walker) : State := { s with rwk := x }
/-- The state with `ehu` replaced. -/
def State.withEhu (s : State) (x : Ehu) : State := { s with ehu := x }
/-- The state with `sce` replaced. -/
def State.withSce (s : State) (x : Sce) : State := { s with sce := x }
/-- The state with `hlr` replaced. -/
def State.withHlr (s : State) (x : Pair Hlr) : State := { s with hlr := x }
/-- The state with `helm` replaced. -/
def State.withHelm (s : State) (x : Helm) : State := { s with helm := x }
/-- The state with `ftu` replaced. -/
def State.withFtu (s : State) (x : Ftu) : State := { s with ftu := x }
/-- The state with `hlt` replaced. -/
def State.withHlt (s : State) (x : Quad Hlt) : State := { s with hlt := x }
/-- The state with `sru` replaced. -/
def State.withSru (s : State) (x : Sru) : State := { s with sru := x }

/-- The state with the receiver of one link replaced. -/
def State.withLink (s : State) (l : Link) (x : Hlr) : State := s.withHlr (s.hlr.set l x)
/-- The state with the transmitter of one head replaced. -/
def State.withHead (s : State) (h : Head) (x : Hlt) : State := s.withHlt (s.hlt.set h x)

/-- Reasons to stop with a fault. The spec gives the part no behaviour that stops it, so there are none. -/
inductive Fault
deriving DecidableEq, Repr

/-- Reasons to refuse a command. -/
inductive Refusal
  /-- Raised only by exec's own arm of a command that has no meaning yet; safe, since nothing is claimed of it. -/
  | notModelled (mnemonic : String)
deriving DecidableEq, Repr

/-- The outcome of a command. -/
abbrev Out := Host.Outcome State Fault Refusal

end Sys2Proof.Machine
end

