-- ==== Sys2Proof/Machine/Operands.lean ====
section
/-! DEFINITION. The byte layouts of the part (chapter 9.6): byte lanes, the windows, line slots and story entries, the
control-window words with their encodings and clamps, the event records and the codes of the status block. -/

namespace Sys2Proof.Machine

open Sys2Proof.Config

/-! ## Bytes of words -/

/-- Lane `k` of a word (00_scope.md 5.1). -/
def laneOf (w : Word) (k : Nat) : Byte := (w >>> (8 * k)).setWidth 8

/-- The word of four bytes, the first in lane 0. -/
def wordOf (b0 b1 b2 b3 : Byte) : Word :=
  b0.setWidth 32 ||| (b1.setWidth 32 <<< 8) ||| (b2.setWidth 32 <<< 16) ||| (b3.setWidth 32 <<< 24)

/-- The four bytes of a word, lane 0 first. -/
def bytesOf (w : Word) : List Byte := [laneOf w 0, laneOf w 1, laneOf w 2, laneOf w 3]

/-- Bytes 0 and 1 of a word. -/
def loHalf (w : Word) : Nat := (w.setWidth 16).toNat

/-- Bytes 2 and 3 of a word. -/
def hiHalf (w : Word) : Nat := ((w >>> 16).setWidth 16).toNat

/-- The word of two 16-bit fields, the first in bytes 0 and 1. -/
def wordOfHalves (lo hi : Half) : Word := lo.setWidth 32 ||| (hi.setWidth 32 <<< 16)

/-- The two bytes of a 16-bit field, the least significant first. -/
def bytesOfHalf (h : Half) : List Byte := [h.setWidth 8, (h >>> 8).setWidth 8]

/-- The word with the enabled lanes taken from `new` and the others from `old`. -/
def mergeLanes (lanes : Lanes) (new old : Word) : Word :=
  let pick (k : Nat) : Byte := if lanes.getLsbD k then laneOf new k else laneOf old k
  wordOf (pick 0) (pick 1) (pick 2) (pick 3)

/-! ## The windows (R170) -/

/-- The windows of the script memory (R170). -/
inductive Window | control | report | rundown | general | line
deriving DecidableEq, Repr

/-- The window that holds a word (R170). -/
def windowOf (wa : Nat) : Window :=
  if wa < reportBase then .control
  else if wa < rundownBase then .report
  else if wa < generalBase then .rundown
  else if wa < lineBase then .general
  else .line

/-- The slot of a line-store word (R27). -/
def slotOf (wa : Nat) : Nat := (wa - lineBase) / slotWords

/-- The number of a line-store word within its slot, 0..31. -/
def slotWordOf (wa : Nat) : Nat := (wa - lineBase) % slotWords

/-- The content lanes of slot word `k` (R27). -/
def contentLanes (k : Nat) : Lanes := if k = 0 then 0b0000 else if k = 1 then 0b1010 else 0b1111

/-- The structure lanes of slot word `k` (R27). -/
def structureLanes (k : Nat) : Lanes := if k = 0 then 0b1111 else if k = 1 then 0b0001 else 0b0000

/-- The commit lane of slot word `k` (R27). -/
def commitLanes (k : Nat) : Lanes := if k = 1 then 0b0100 else 0b0000

/-- The lanes of a word that a structure write enables: any lane of the rundown, the structure lanes of a slot (R5). -/
def structureLanesAt (wa : Nat) : Lanes :=
  match windowOf wa with
  | .rundown => 0b1111
  | .line => structureLanes (slotWordOf wa)
  | _ => 0b0000

/-- Word `k` of a line slot. -/
def slotAddr (slot k : Nat) : Nat := lineBase + slotWords * slot + k

/-- Word `k` of a story entry. -/
def entryAddr (entry k : Nat) : Nat := rundownBase + 2 * entry + k

/-- Word `k` of row `r` of card `c` (R181). -/
def cardAddr (c r k : Nat) : Nat := (0x400 + 0x100 * (c - 1) + 0x40 * r) / 4 + k

/-! ## Line slots and story entries (R178) -/

/-- The kind a kind byte stands for, none for HIDDEN (R2, R13). -/
def rowKindOf (b : Byte) : Option RowKind :=
  match b.toNat with
  | 1 => some .cue
  | 2 => some .gap
  | 3 => some .stop
  | 4 => none
  | _ => some .text

/-- The SKIP flag of an entry's flags word (R178). -/
def skipFlag (w : Word) : Bool := w.getLsbD 0

/-- The GUARD flag of an entry's flags word (R178). -/
def guardFlag (w : Word) : Bool := w.getLsbD 1

/-- The length a head is sent for a stored length (R141). -/
def usedLength (b : Byte) : Nat := min b.toNat 120

/-- The length a head is sent for a card row's stored length (R160). -/
def usedCardLength (b : Byte) : Nat := min b.toNat 60

/-! ## Codes of the status block and the records (R182, R183) -/

/-- Code of a holder (R182). -/
def holderCode : Option Claimant → Nat
  | none => 0
  | some .operator => 1
  | some .presenter => 2
  | some .auto => 3

/-- Code of a claimant's state (R182). -/
def claimStateCode : ClaimState → Nat
  | .idle => 0
  | .pending => 1
  | .holding => 2
  | .suspended => 3

/-- Code of a link's state (R182). -/
def linkStateCode : LinkState → Nat
  | .absent => 0
  | .suspect => 1
  | .active => 2
  | .lost => 3

/-- Code of a link, and of a mark's owner (R183). -/
def linkCode : Link → Nat
  | .operator => 1
  | .presenter => 2

/-- Code of a head's state (R182). -/
def headStateCode : HeadState → Nat
  | .silent => 0
  | .up => 1
  | .stalled => 2

/-- Number of a head. -/
def headCode : Head → Nat
  | .h0 => 0
  | .h1 => 1
  | .h2 => 2
  | .h3 => 3

/-- Code of a sync state (R182). -/
def syncCode : SyncState → Nat
  | .substitute => 0
  | .acquiring => 1
  | .locked => 2

/-- Code of a row's kind in a ROW message (R185). -/
def rowKindCode : RowKind → Nat
  | .text => 0
  | .cue => 1
  | .gap => 2
  | .stop => 3

/-- Code of the cause of a reset (R183). -/
def resetCauseCode : ResetCause → Nat
  | .power => 0
  | .pin => 1
  | .run => 2

/-- Code of the cause of a link fault (R183). -/
def linkFaultCode : LinkFault → Nat
  | .badIndex => 0
  | .revisit => 1
  | .foreign => 2

/-- Code of the cause of a change of holder (R183). -/
def helmCauseCode : HelmCause → Nat
  | .claim => 0
  | .level => 1
  | .mode => 2
  | .release => 3
  | .linkLost => 4
  | .autoOff => 5
  | .runReset => 6

/-! ## Event records (R183, R198) -/

/-- The event code of R183. -/
def eventCode : Event → Nat
  | .reset _ => 1
  | .relinkDone .. => 2
  | .dupStory .. => 3
  | .linkFault .. => 4
  | .mapFull .. => 5
  | .anchorMoved .. => 6
  | .anchorLost .. => 7
  | .markLost .. => 8
  | .markDropped .. => 9
  | .helmChange .. => 10
  | .linkState .. => 11
  | .stopReached .. => 12
  | .topStop .. => 13
  | .endStop .. => 14
  | .runout .. => 15
  | .holdSpill .. => 16
  | .holdExpired .. => 17
  | .holdNear .. => 18
  | .settingClamped .. => 19
  | .syncState .. => 20
  | .headState .. => 21
  | .routeDemoted .. => 22
  | .injectDone .. => 23

/-- The attention bit of an event's group (R198). -/
def eventGroup : Event → Nat
  | .relinkDone .. => 0
  | .dupStory .. => 0
  | .linkFault .. => 0
  | .mapFull .. => 0
  | .anchorMoved .. => 1
  | .anchorLost .. => 1
  | .markLost .. => 2
  | .markDropped .. => 2
  | .helmChange .. => 3
  | .linkState .. => 4
  | .stopReached .. => 5
  | .topStop .. => 5
  | .endStop .. => 5
  | .holdNear .. => 6
  | .holdSpill .. => 6
  | .holdExpired .. => 6
  | .syncState .. => 7
  | .headState .. => 8
  | .injectDone .. => 8
  | .runout .. => 9
  | .settingClamped .. => 10
  | .routeDemoted .. => 10
  | .reset _ => 10

/-- The attention bit of OVERFLOW (R198). -/
def overflowGroup : Nat := 11

/-- The parameters of an event as the record holds them, those it does not use 0 (R183). -/
def eventParams : Event → Half × Half × Word
  | .reset c => (.ofNat 16 (resetCauseCode c), 0, 0)
  | .relinkDone rows stories faults discards =>
    (.ofNat 16 rows, .ofNat 16 stories, wordOfHalves (.ofNat 16 faults) (.ofNat 16 discards))
  | .dupStory story entry => (.ofNat 16 story, .ofNat 16 entry, 0)
  | .linkFault story slot c => (.ofNat 16 story, .ofNat 16 slot, .ofNat 32 (linkFaultCode c))
  | .mapFull story entry slot => (.ofNat 16 story, .ofNat 16 entry, .ofNat 32 slot)
  | .anchorMoved old found index => (.ofNat 16 old, .ofNat 16 found, .ofNat 32 index)
  | .anchorLost old row => (.ofNat 16 old, .ofNat 16 row, 0)
  | .markLost slot owner frame => (.ofNat 16 slot, .ofNat 16 (linkCode owner), frame.setWidth 32)
  | .markDropped slot owner frame => (.ofNat 16 slot, .ofNat 16 (linkCode owner), frame.setWidth 32)
  | .helmChange old new c => (.ofNat 16 (holderCode old), .ofNat 16 (holderCode new), .ofNat 32 (helmCauseCode c))
  | .linkState l st => (.ofNat 16 (linkCode l), .ofNat 16 (linkStateCode st), 0)
  | .stopReached row slot story => (.ofNat 16 row, .ofNat 16 slot, .ofNat 32 story)
  | .topStop slot speed => (.ofNat 16 slot, 0, .ofInt 32 speed)
  | .endStop slot speed => (.ofNat 16 slot, 0, .ofInt 32 speed)
  | .runout remaining row threshold => (.ofNat 16 remaining, .ofNat 16 row, .ofNat 32 threshold)
  | .holdSpill slot count => (.ofNat 16 slot, .ofNat 16 count, 0)
  | .holdExpired slot count => (.ofNat 16 slot, .ofNat 16 count, 0)
  | .holdNear count threshold => (.ofNat 16 count, .ofNat 16 threshold, 0)
  | .settingClamped offset effective written => (.ofNat 16 offset, effective, written)
  | .syncState st n period => (.ofNat 16 (syncCode st), .ofNat 16 n, .ofNat 32 period)
  | .headState h st lag => (.ofNat 16 (headCode h), .ofNat 16 (headStateCode st), .ofNat 32 lag)
  | .routeDemoted h written => (.ofNat 16 (headCode h), 0, written)
  | .injectDone h count => (.ofNat 16 (headCode h), .ofNat 16 count, 0)

/-- Word `k` (0..3) of a record (R183). -/
def recordWordAt (r : Record) (k : Nat) : Word :=
  let p := eventParams r.event
  match k with
  | 0 => wordOfHalves (.ofNat 16 (eventCode r.event)) r.frame
  | 1 => r.tick
  | 2 => wordOfHalves p.1 p.2.1
  | _ => p.2.2

/-! ## The control window (R179 to R181) -/

/-- The fields of a claimant block (R180). -/
inductive ClaimantField
  | curve | deadZone | scale | claimOnMove | debounce | pressWindow | silenceLimit
  | button (b : Nat)
deriving DecidableEq, Repr

/-- The fields of a route block (R181). -/
inductive RouteField | source | rows | readRow | budget | stall | mirror | inject
deriving DecidableEq, Repr

/-- The words of the control window that a block takes (R179 to R181). -/
inductive ControlWord
  | runReset | settle | editMode | guardBand | holdLimit | nearFull | speedLimit | accel | stopRate | runout | nominal
  | helmMode | autoEnable | autoSpeed | mask | intEnable
  | level (c : Claimant)
  | claimant (l : Link) (f : ClaimantField)
  | curve (b : Bool) (k : Nat)
  | route (h : Head) (f : RouteField)
  | card (c r : Nat)
deriving DecidableEq, Repr

/-- The word of a claimant block at a byte offset in it (R180). -/
def claimantFieldAt (o : Nat) : Option ClaimantField :=
  match o with
  | 0x00 => some .curve
  | 0x04 => some .deadZone
  | 0x08 => some .scale
  | 0x0C => some .claimOnMove
  | 0x10 => some .debounce
  | 0x14 => some .pressWindow
  | 0x18 => some .silenceLimit
  | 0x1C => none
  | _ => some (.button ((o - 0x20) / 4))

/-- The word of a route block at a byte offset in it (R181). -/
def routeFieldAt (o : Nat) : Option RouteField :=
  match o with
  | 0x00 => some .source
  | 0x04 => some .rows
  | 0x08 => some .readRow
  | 0x0C => some .budget
  | 0x10 => some .stall
  | 0x14 => some .mirror
  | 0x18 => some .inject
  | _ => none

/-- The byte offset of a field in its route block (R181). -/
def routeFieldOffset : RouteField → Nat
  | .source => 0x00
  | .rows => 0x04
  | .readRow => 0x08
  | .budget => 0x0C
  | .stall => 0x10
  | .mirror => 0x14
  | .inject => 0x18

/-- The head whose route block holds a byte offset, 0x200..0x27F (R181). -/
def routeHeadAt (o : Nat) : Head :=
  match (o - 0x200) / 0x20 with
  | 0 => .h0
  | 1 => .h1
  | 2 => .h2
  | _ => .h3

/-- The control-window byte offset of a route field (R181). -/
def routeOffset (h : Head) (f : RouteField) : Nat := 0x200 + 0x20 * headCode h + routeFieldOffset f

/-- What stands at a byte offset of the control window that is a multiple of 4; none where it is unassigned (R179 to R181). -/
def controlWordAt (o : Nat) : Option ControlWord :=
  if o < 0x80 then
    match o with
    | 0x000 => some .runReset
    | 0x004 => some .settle
    | 0x008 => some .editMode
    | 0x00C => some .guardBand
    | 0x010 => some .holdLimit
    | 0x014 => some .nearFull
    | 0x018 => some .speedLimit
    | 0x01C => some .accel
    | 0x020 => some .stopRate
    | 0x024 => some .runout
    | 0x028 => some .nominal
    | 0x02C => some .helmMode
    | 0x030 => some (.level .operator)
    | 0x034 => some (.level .presenter)
    | 0x038 => some (.level .auto)
    | 0x03C => some .autoEnable
    | 0x040 => some .autoSpeed
    | 0x044 => some .mask
    | 0x048 => some .intEnable
    | _ => none
  else if o < 0xC0 then (claimantFieldAt (o - 0x80)).map (.claimant .operator)
  else if o < 0x100 then (claimantFieldAt (o - 0xC0)).map (.claimant .presenter)
  else if o < 0x144 then some (.curve false ((o - 0x100) / 4))
  else if o < 0x180 then none
  else if o < 0x1C4 then some (.curve true ((o - 0x180) / 4))
  else if o < 0x200 then none
  else if o < 0x280 then (routeFieldAt ((o - 0x200) % 0x20)).map (.route (routeHeadAt o))
  else if o < 0x400 then none
  else if o < 0x700 then some (.card ((o - 0x400) / 0x100 + 1) ((o - 0x400) % 0x100 / 0x40))
  else none

/-! ## Encodings and clamps (R179 to R181, R187) -/

/-- A number brought into a range (00_scope.md 5.2). -/
def clamp (lo hi n : Nat) : Nat := max lo (min hi n)

/-- A signed number brought into a range. -/
def clampInt (lo hi n : Int) : Int := max lo (min hi n)

/-- The edit mode of a written word (R179). -/
def editModeOf (w : Word) : EditMode :=
  match w.toNat with
  | 0 => .pass
  | 1 => .batch
  | _ => .shelter

/-- The code of an edit mode. -/
def editModeCode : EditMode → Nat
  | .pass => 0
  | .batch => 1
  | .shelter => 2

/-- The helm mode of a written word (R179). -/
def helmModeOf (w : Word) : HelmMode := if w = 0 then .nest else .single

/-- The code of a helm mode. -/
def helmModeCode : HelmMode → Nat
  | .nest => 0
  | .single => 1

/-- A flag of a written word: 0 is clear, anything else is taken as 1 (R179 to R181). -/
def flagOf (w : Word) : Bool := w != 0

/-- The code of a flag. -/
def flagCode (b : Bool) : Nat := if b then 1 else 0

/-- The source of a written word (R181). -/
def sourceOf (w : Word) : Source :=
  match w.toNat with
  | 1 => .live
  | 2 => .card1
  | 3 => .card2
  | 4 => .card3
  | 5 => .test
  | _ => .off

/-- The code of a source. -/
def sourceCode : Source → Nat
  | .off => 0
  | .live => 1
  | .card1 => 2
  | .card2 => 3
  | .card3 => 4
  | .test => 5

/-- The card a source shows, if it is one (R160). -/
def cardOf : Source → Option Nat
  | .card1 => some 1
  | .card2 => some 2
  | .card3 => some 3
  | _ => none

/-- The action of a code (R180). -/
def actionOf (b : Byte) : Action :=
  match b.toNat with
  | 1 => .take
  | 2 => .release
  | 3 => .pause
  | 4 => .mark
  | 5 => .returnMark
  | 6 => .nextStory
  | 7 => .prevStory
  | _ => .none

/-- The code of an action. -/
def actionCode : Action → Nat
  | .none => 0
  | .take => 1
  | .release => 2
  | .pause => 3
  | .mark => 4
  | .returnMark => 5
  | .nextStory => 6
  | .prevStory => 7

/-- The edge of a code (R180). -/
def edgeOf (b : Byte) : Edge :=
  match b.toNat with
  | 0 => .press
  | 1 => .lift
  | _ => .both

/-- The code of an edge. -/
def edgeCode : Edge → Nat
  | .press => 0
  | .lift => 1
  | .both => 2

/-- The press count of a code (R94, R180). -/
def pressCountOf (b : Byte) : Nat :=
  match b.toNat with
  | 0 => 1
  | 1 => 1
  | 2 => 2
  | _ => 4

/-- The button map entry of a written word; byte 3 is not read (R180). -/
def buttonOf (w : Word) : ButtonEntry := ⟨actionOf (laneOf w 0), edgeOf (laneOf w 1), pressCountOf (laneOf w 2)⟩

/-- The effective value SETTING_CLAMPED carries for a button map entry (R183). -/
def buttonCode (e : ButtonEntry) : Nat := actionCode e.action + 16 * edgeCode e.edge + 256 * e.count

/-- The word that encodes a button map entry (R180). -/
def buttonWord (e : ButtonEntry) : Word := .ofNat 32 (actionCode e.action + 0x100 * edgeCode e.edge + 0x10000 * e.count)

/-- A claimant setting as taken: the value put into use or staged, what SETTING_CLAMPED would report as effective, and
whether the written word differs from it (R180, R187). -/
structure TakenClaimant where
  update : ClaimantUpdate
  effective : Nat
  clamped : Bool
deriving DecidableEq, Repr

/-- A claimant setting taken from the word written (R121, R180). -/
def takeClaimantWord (f : ClaimantField) (w : Word) : TakenClaimant :=
  let number (mk : Nat → ClaimantUpdate) (lo hi : Nat) : TakenClaimant :=
    let n := clamp lo hi w.toNat
    ⟨mk n, n, n != w.toNat⟩
  let flag (mk : Bool → ClaimantUpdate) : TakenClaimant :=
    ⟨mk (flagOf w), flagCode (flagOf w), flagCode (flagOf w) != w.toNat⟩
  match f with
  | .curve => flag .curve
  | .deadZone => number .deadZone 0 31
  | .scale => number .scale 1 32
  | .claimOnMove => flag .claimOnMove
  | .debounce => number .debounce 1 4
  | .pressWindow => number .pressWindow 100 2000
  | .silenceLimit => number .silenceLimit 0 80
  | .button b =>
    let e := buttonOf w
    ⟨.button b e, buttonCode e, (buttonWord e).setWidth 24 != w.setWidth 24⟩

/-- The word that encodes a claimant setting (R180). -/
def claimantWord (x : ClaimantSettings) : ClaimantField → Word
  | .curve => .ofNat 32 (flagCode x.curveB)
  | .deadZone => .ofNat 32 x.deadZone
  | .scale => .ofNat 32 x.scale
  | .claimOnMove => .ofNat 32 (flagCode x.claimOnMove)
  | .debounce => .ofNat 32 x.debounce
  | .pressWindow => .ofNat 32 x.pressWindow
  | .silenceLimit => .ofNat 32 x.silenceLimit
  | .button b => buttonWord (x.buttons.getD b ⟨.none, .press, 1⟩)

/-- The word that encodes a route field (R181). -/
def routeWord (r : Route) : RouteField → Word
  | .source => .ofNat 32 (sourceCode r.source)
  | .rows => .ofNat 32 r.rows
  | .readRow => .ofNat 32 r.readRow
  | .budget => .ofNat 32 r.budget
  | .stall => .ofNat 32 r.stall
  | .mirror => .ofNat 32 (flagCode r.mirror)
  | .inject => .ofNat 32 r.inject

/-- The level setting of a claimant (R106). -/
def levelOf (x : Settings) : Claimant → Nat
  | .operator => x.levelOperator
  | .presenter => x.levelPresenter
  | .auto => x.levelAuto

/-- The word initialisation writes at an assigned word of the control window (R194). -/
def defaultWord : ControlWord → Word
  | .runReset => 0
  | .settle => .ofNat 32 resetSettings.settle
  | .editMode => .ofNat 32 (editModeCode resetSettings.editMode)
  | .guardBand => .ofNat 32 resetSettings.guardBand
  | .holdLimit => .ofNat 32 resetSettings.holdLimit
  | .nearFull => .ofNat 32 resetSettings.nearFull
  | .speedLimit => .ofNat 32 resetSettings.speedLimit
  | .accel => .ofNat 32 resetSettings.accel
  | .stopRate => .ofNat 32 resetSettings.stopRate
  | .runout => .ofNat 32 resetSettings.runout
  | .nominal => .ofNat 32 resetSettings.nominal
  | .helmMode => .ofNat 32 (helmModeCode resetSettings.helmMode)
  | .autoEnable => .ofNat 32 (flagCode resetSettings.autoEnable)
  | .autoSpeed => .ofInt 32 resetSettings.autoSpeed
  | .mask => resetSettings.mask.setWidth 32
  | .intEnable => .ofNat 32 (flagCode resetSettings.intEnable)
  | .level c => .ofNat 32 (levelOf resetSettings c)
  | .claimant l f => claimantWord (resetClaimant l) f
  | .curve false k => .ofNat 32 (resetCurveA.getD k 0)
  | .curve true k => .ofNat 32 (resetCurveB.getD k 0)
  | .route h f => routeWord (resetRoute h) f
  | .card _ _ => 0

/-- The word initialisation writes at window word `i`: 0..1023 the control window, 1024..2047 the report window
(R182, R193, R194). -/
def initialWord (i : Nat) : Word :=
  if i < reportBase then
    match controlWordAt (4 * i) with
    | some c => defaultWord c
    | none => 0
  else 0

/-! ## Link messages (R184, R185) -/

/-- The byte that makes a message sum to 0 mod 256 (R87, R138). -/
def checkByte (body : List Byte) : Byte := 0 - body.foldl (· + ·) 0

/-- The sum of the bytes of a message. -/
def byteSum (bytes : List Byte) : Byte := bytes.foldl (· + ·) 0

/-- A deflection byte as taken: signed, −128 taken as −127 (R87). -/
def deflectionOf (b : Byte) : Int := max (-127) b.toInt

end Sys2Proof.Machine
end

