-- ==== Sys2Proof/Machine/Ops.lean ====
section
/-! DEFINITION. The operations the commands share: the script memory, raising an event, and the memory port with its
arbiter. -/

namespace Sys2Proof.Machine

open Sys2Proof.Config

/-! ## Script memory -/

/-- What a byte that nothing has written reads as. DESIGN CHOICE (assumption 1). -/
def unlistedByte : Byte := 0

/-- The byte at a byte address. -/
def readByte : Memory → Nat → Byte
  | [], _ => unlistedByte
  | (k, b) :: rest, a => if k = a then b else readByte rest a

/-- The memory with one byte written, in the canonical form. -/
def writeByte : Memory → Nat → Byte → Memory
  | [], a, b => if b = unlistedByte then [] else [(a, b)]
  | (k, c) :: rest, a, b =>
    if a < k then (if b = unlistedByte then (k, c) :: rest else (a, b) :: (k, c) :: rest)
    else if a = k then (if b = unlistedByte then rest else (a, b) :: rest)
    else (k, c) :: writeByte rest a b

/-- The addresses rise strictly from `lo` on and no listed byte is the unlisted one. -/
def Memory.wfFrom (lo : Nat) : Memory → Bool
  | [] => true
  | (k, b) :: rest => decide (lo ≤ k) && (b != unlistedByte) && Memory.wfFrom (k + 1) rest

/-- The canonical form: equal memories are equal lists. -/
def Memory.wf (m : Memory) : Bool := Memory.wfFrom 0 m

/-- The word at a word address (00_scope.md 5.1). -/
def readWord (m : Memory) (wa : Nat) : Word :=
  wordOf (readByte m (4 * wa)) (readByte m (4 * wa + 1)) (readByte m (4 * wa + 2)) (readByte m (4 * wa + 3))

/-- Lane `k` of a word written if it is enabled. -/
def writeLane (m : Memory) (wa : Nat) (lanes : Lanes) (data : Word) (k : Nat) : Memory :=
  if lanes.getLsbD k then writeByte m (4 * wa + k) (laneOf data k) else m

/-- The enabled lanes of a word written (R172). -/
def writeWord (m : Memory) (wa : Nat) (lanes : Lanes) (data : Word) : Memory :=
  writeLane (writeLane (writeLane (writeLane m wa lanes data 0) wa lanes data 1) wa lanes data 2) wa lanes data 3

/-! ## Events -/

/-- The attention bit of a group (R182). -/
def groupBit (g : Nat) : BitVec 12 := 1 <<< g

/-- The ring has room for an event (R202). -/
def Sru.hasRoom (x : Sru) : Bool := decide ((x.produce - x.consume).toNat < ringRecords)

/-- The attention bits an event sets (R198, R202). -/
def Sru.eventBits (x : Sru) (e : Event) : BitVec 12 :=
  groupBit (eventGroup e) ||| (if x.hasRoom then 0 else groupBit overflowGroup)

/-- An event at the SRU (R198, R199, R202). -/
def Sru.accept (x : Sru) (e : Event) (frame : Half) (tick : Word) : Sru :=
  { x with
    latch := x.latch ||| x.eventBits e
    fresh := x.fresh ||| x.eventBits e
    attnReq := x.attnReq || ((x.latch ||| x.eventBits e) != x.latch)
    records := if x.hasRoom then x.records ++ [⟨x.produce, e, frame, tick⟩] else x.records
    produce := if x.hasRoom then x.produce + 1 else x.produce }

/-- An event raised by a block: it carries the frame number of the last boundary made and the tick count (R135, R202). -/
def raise (s : State) (e : Event) : State := s.withSru (s.sru.accept e s.ftu.frame s.ftu.tick)

/-- Events raised one after another. -/
def raiseAll (s : State) (es : List Event) : State := es.foldl raise s

/-! ## Requests at the memory port -/

/-- The word address of a walk read (R10). -/
def walkReadAddr : WalkRead → Nat
  | .entryWord i => entryAddr i 0
  | .entryFlags i _ _ => entryAddr i 1
  | .slotWord _ _ slot _ => slotAddr slot 0
  | .slotKind _ _ slot _ _ => slotAddr slot 1

/-- The word address of the read a ROW under construction waits for (R152, R154, R160). -/
def rowReadAddr (b : RowBuild) : Nat :=
  match b.source, b.stage with
  | .slot n _ _, .header => slotAddr n 1
  | .slot n _ _, .text _ _ words => slotAddr n (2 + words.length)
  | .card c r, .header => cardAddr c r 0
  | .card c r, .text _ _ words => cardAddr c r (1 + words.length)

/-- A part read of one word (R172). -/
def partRead (r : Requester) (wa : Nat) : PortAccess := ⟨.part r, false, wa, 0b1111, 0, false⟩

/-- A part write of a whole word (R172). -/
def partWrite (r : Requester) (wa : Nat) (data : Word) : PortAccess := ⟨.part r, true, wa, 0b1111, data, false⟩

/-- The oldest entry whose release write is awaited (R38). -/
def oldestReleasing (q : List HoldEntry) : Option HoldEntry := q.find? (fun e => e.state == .releasing)

/-- The access of the SRU's request, with its data as it then stands (R199, R203). -/
def sruAccess (s : State) : Option PortAccess :=
  match s.sru.request with
  | none => none
  | some .initWord => some (partWrite .sru s.rst.initWord (initialWord s.rst.initWord))
  | some .record =>
    match s.sru.records with
    | [] => none
    | r :: _ =>
      if s.sru.recordWord < 4 then
        some (partWrite .sru (ringBase + 4 * (r.num.toNat % ringRecords) + s.sru.recordWord)
          (recordWordAt r s.sru.recordWord))
      else some (partWrite .sru produceWord ((r.num + 1).setWidth 32))
  | some .attention => some (partWrite .sru attentionWord (s.sru.latch.setWidth 32))
  | some .runResetZero => some (partWrite .sru 0 0)
  | some .status =>
    match s.sru.status with
    | none => none
    | some w => some (partWrite .sru (reportBase + w.next) (w.words.getD w.next 0))

/-- The access of the EHU: a guard-set read of initialisation (R31), or the release write of the oldest RELEASING
entry (R38). The guard-set reads go through the entries in ascending order. DESIGN CHOICE (assumption 37). -/
def ehuAccess (s : State) : Option PortAccess :=
  if s.rst.phase = .windows ∧ s.rst.guardNext < entryCount then some (partRead .ehu (entryAddr s.rst.guardNext 1))
  else
    match oldestReleasing s.ehu.queue with
    | none => none
    | some e => some ⟨.part .ehu, true, e.wa, e.mask, e.data, false⟩

/-- The access each part requester has to make, if any (R174). -/
def partAccess (s : State) : Requester → Option PortAccess
  | .sru => sruAccess s
  | .ehu => ehuAccess s
  | .hlt h => ((s.hlt.get h).build).map (fun b => partRead (.hlt h) (rowReadAddr b))
  | .rwk => (s.rwk.read).map (fun r => partRead .rwk (walkReadAddr r))

/-- The requester's access is in progress at the port. -/
def holdsPort (s : State) (r : Requester) : Bool :=
  match s.port.busy with
  | some a => a.owner == .part r
  | none => false

/-- The requester has an access waiting: it has at most one waiting or in progress (R174). -/
def partWaits (s : State) (r : Requester) : Bool := !holdsPort s r && (partAccess s r).isSome

/-- The cyclic order of the part requesters (R174). -/
def requesters : List Requester := [.sru, .ehu, .hlt .h0, .hlt .h1, .hlt .h2, .hlt .h3, .rwk]

/-- The place of a requester in the cyclic order. -/
def requesterIndex : Requester → Nat
  | .sru => 0
  | .ehu => 1
  | .hlt .h0 => 2
  | .hlt .h1 => 3
  | .hlt .h2 => 4
  | .hlt .h3 => 5
  | .rwk => 6

/-- Some part access waits. -/
def anyPartWaits (s : State) : Bool := requesters.any (partWaits s)

/-- The requesters in the order of the arbiter's search, from the one after the pointer (R174). -/
def searchOrder (p : Requester) : List Requester :=
  requesters.drop (requesterIndex p + 1) ++ requesters.take (requesterIndex p + 1)

/-- The word is one of the status block's. -/
def inStatusBlock (wa : Nat) : Bool := decide (reportBase ≤ wa ∧ wa < reportBase + statusWords)

/-- A processor access waits at the arbiter; a read of the status block is not presented to it while a status write is in
progress (R196). -/
def processorWaits (s : State) : Option Carried :=
  match s.ptp.carried with
  | none => none
  | some c =>
    if c.stage = .waiting ∧ ¬(c.acc.write = false ∧ inStatusBlock c.acc.ha.toNat = true ∧ s.sru.status.isSome = true)
    then some c else none

/-! ## The arbiter -/

/-- The next access of the SRU (R193, R203). -/
def sruNext (s : State) : Option SruAccess :=
  match s.rst.phase with
  | .held => none
  | .windows => if s.rst.initWord < 2048 then some .initWord else none
  | .firstRecord => if s.sru.records.isEmpty then none else some .record
  | .firstAttention => some .attention
  | _ =>
    if !s.sru.records.isEmpty then some .record
    else if s.sru.attnReq then some .attention
    else if s.sru.zeroDue then some .runResetZero
    else if s.sru.status.isSome then some .status
    else none

/-- The SRU requests its next access when it has none waiting or in progress; an attention write that still waits gives way to a
record accepted since, which reaches memory first (R203). DEDUCED (assumption 14). -/
def requestSru (s : State) : State :=
  if (s.sru.request.isNone || s.sru.request == some .attention) && !holdsPort s .sru
  then s.withSru { s.sru with request := sruNext s } else s

/-- The fairness count is 0 whenever no part access waits, as a whole command leaves them (R173). DESIGN CHOICE
(assumption 32). -/
def clearFairness (s : State) : State := if anyPartWaits s then s else s.withPort { s.port with fairness := 0 }

/-- A part access is granted by the cyclic order; an attention write takes its data here and the fresh set empties
(R174, R199). -/
def grantPart (s : State) : State :=
  match (searchOrder s.port.pointer).find? (partWaits s) with
  | none => s
  | some r =>
    match partAccess s r with
    | none => s
    | some a =>
      let s' := s.withPort { busy := some a, fairness := 0, pointer := r }
      if r = .sru ∧ s.sru.request = some .attention then s'.withSru { s.sru with fresh := 0, attnReq := false } else s'

/-- The waiting processor access is granted (R173). -/
def grantProcessor (s : State) (c : Carried) : State :=
  (s.withPort { s.port with
      busy := some ⟨.processor, c.acc.write, c.acc.ha.toNat, if c.acc.write then c.lanes else 0b1111, c.acc.data, false⟩
      fairness := if anyPartWaits s then s.port.fairness + 1 else s.port.fairness }).withPtp
    { s.ptp with carried := some { c with stage := .onPort } }

/-- The free port granted by the cases of R173, once what the performed access handed on has been taken: the SRU takes a
setting when its write is performed, and an attention write granted after a read sees the latch as the read left it (R186,
R191, R200). DEDUCED (assumption 9). -/
def grant (s : State) : State :=
  if s.port.busy.isSome || !s.ptp.handovers.isEmpty then s
  else if anyPartWaits s && decide (fairnessLimit ≤ s.port.fairness) then grantPart s
  else
    match processorWaits s with
    | some c => grantProcessor s c
    | none => grantPart s

/-- What the arbiter does at once when a command has changed what waits or has freed the port (R173). -/
def arbitrate (s : State) : State := grant (clearFairness (requestSru s))

/-- A command is carried out: the arbiter then grants the port if it can. -/
def done (s : State) : Out := .next (arbitrate s)

/-- The access in progress, if it belongs to this owner and is a write or a read as asked. -/
def inProgress (s : State) (o : Owner) (write : Bool) : Option PortAccess :=
  match s.port.busy with
  | some a => if a.owner = o ∧ a.write = write then some a else none
  | none => none

/-- The port becomes free. -/
def freePort (s : State) : State := s.withPort { s.port with busy := none }

/-- An access in progress that its requester has abandoned (R172). -/
def orphanOf (s : State) (r : Requester) : State :=
  if holdsPort s r then s.withPort { s.port with busy := s.port.busy.map (fun a => { a with orphan := true }) } else s

end Sys2Proof.Machine
end

