-- ==== Sys2Proof/Machine/Flags.lean ====
section
/-! DEFINITION. What the part shows at its pins and on its status lines, computed from the state: IRQ#, READY, the memory
side, the claimant states and the status byte of a hand unit. -/

namespace Sys2Proof.Machine

open Sys2Proof.Config

/-- IRQ# is driven low (R201). -/
def irqLow (s : State) : Bool := s.sru.set.intEnable && ((s.sru.latch &&& s.sru.set.mask) != 0)

/-- READY is driven high: the access taken is complete and HCS# has not risen (R169, R177). -/
def readyHigh (s : State) : Bool :=
  match s.ptp.carried with
  | some c => c.stage == .complete
  | none => false

/-- MCS# is driven low: an access occupies the port (R172). -/
def mcsLow (s : State) : Bool := s.port.busy.isSome

/-- MWE# is driven low (R172). -/
def mweLow (s : State) : Bool := s.port.busy.any (fun a => a.write)

/-- MOE# is driven low (R172). -/
def moeLow (s : State) : Bool := s.port.busy.any (fun a => !a.write)

/-- The state of a claimant (R105). -/
def claimState (x : Helm) (c : Claimant) : ClaimState :=
  if x.holder = some c then .holding
  else if c ∈ x.stack then .suspended
  else if c ∈ x.waiting then .pending
  else .idle

/-- The claimant a hand link serves (chapter 5). -/
def claimantOf : Link → Claimant
  | .operator => .operator
  | .presenter => .presenter

/-- The hand link that serves a claimant; AUTO has none. -/
def linkOf : Claimant → Option Link
  | .operator => some .operator
  | .presenter => some .presenter
  | .auto => none

/-- A flag as a byte of 0 or 1. -/
def bitByte (b : Bool) : Byte := if b then 1 else 0

/-- The status byte to a hand unit (R103, R184). -/
def statusByte (s : State) (l : Link) : Byte :=
  BitVec.ofNat 8 (claimStateCode (claimState s.helm (claimantOf l))) |||
    (bitByte s.helm.paused <<< 2) ||| (bitByte s.helm.coast <<< 3) ||| (bitByte s.sce.stopReached.isSome <<< 4) |||
    (BitVec.ofNat 8 (linkStateCode (s.hlr.get l).link) <<< 5)

/-- The status message to a hand unit (R103, R184). -/
def statusMessage (s : State) (l : Link) : List Byte :=
  [0xA6, statusByte s l, checkByte [0xA6, statusByte s l]]

/-- Number of rows of the active map, L (R3). -/
def rowCount (s : State) : Nat := s.sce.active.rows.length

/-- The lag of a head (R156). -/
def lagOf (frame : Half) (x : Hlt) : Nat :=
  match x.lastAck with
  | some a => (frame - a).toNat
  | none => 0

/-- The lag the status block shows (R159). -/
def shownLag (frame : Half) (x : Hlt) : Nat := if x.state = .silent then 0 else lagOf frame x

/-- The hold count (R34). -/
def holdCount (s : State) : Nat := s.ehu.queue.length

/-- The near-full flag after the hold count or the threshold has changed: whether it is set, and the event a rise raises
(R45). -/
def nearFullStep (flag : Bool) (count threshold : Nat) : Bool × List Event :=
  if threshold ≤ count then (true, if flag then [] else [.holdNear count threshold]) else (false, [])

/-- The run-out flag after a step, with the event a fall raises (R63). -/
def runoutStep (flag : Bool) (remaining row threshold : Nat) : Bool × List Event :=
  if remaining ≤ threshold then (true, if flag then [] else [.runout remaining row threshold]) else (false, [])

/-- The 32 words of the status block (R182, R195). -/
def statusWordsOf (s : State) : List Word :=
  let st (c : Claimant) : Byte := .ofNat 8 (claimStateCode (claimState s.helm c))
  let lag (h : Head) : Half := .ofNat 16 (shownLag s.ftu.frame (s.hlt.get h))
  let hs (h : Head) : Byte := .ofNat 8 (headStateCode (s.hlt.get h).state)
  [ wordOfHalves s.ftu.frame (.ofNat 16 (syncCode s.ftu.sync + 0x100 * s.ftu.goodCount)),
    s.ftu.tick,
    .ofNat 32 s.sce.pos,
    .ofInt 32 s.sce.speed,
    wordOfHalves (.ofNat 16 (rowCount s))
      (.ofNat 16 (holdCount s + 0x100 * (flagCode s.helm.paused + 2 * flagCode s.helm.coast))),
    wordOf (.ofNat 8 (holderCode s.helm.holder)) (st .operator) (st .presenter) (st .auto),
    wordOf (.ofNat 8 (linkStateCode s.hlr.operator.link)) (.ofNat 8 (linkStateCode s.hlr.presenter.link)) 0 0,
    wordOf (hs .h0) (hs .h1) (hs .h2) (hs .h3),
    wordOfHalves (lag .h0) (lag .h1),
    wordOfHalves (lag .h2) (lag .h3),
    s.hlr.operator.checkErrors,
    s.hlr.presenter.checkErrors,
    s.hlr.operator.seqGaps,
    s.hlr.presenter.seqGaps,
    s.helm.refused,
    s.ftu.glitches,
    s.sce.relinks,
    s.rwk.discarded,
    s.ehu.spills,
    s.ehu.expiries,
    s.ptp.dropped ] ++ List.replicate 11 0

end Sys2Proof.Machine
end

