-- ==== Sys2Proof/Machine/Walks.lean ====
section
/-! DEFINITION. The rundown walker (chapter 1): structure writes, the settle timer, the walk and its end, and the commands
SETTLE_EXPIRY and WALK_READ_DONE. -/

namespace Sys2Proof.Machine

open Sys2Proof.Config

/-! ## Settle and the start of a walk -/

/-- A walk starts (R9). -/
def Walker.startWalk (x : Walker) : Walker :=
  { x with
    phase := .walking
    rewalk := false
    seen := 0
    bank := { rows := [], stories := 0, faults := 0, discards := x.discards }
    read := some (.entryWord 0) }

/-- The settle timer expires: in IDLE with map-stale set the walk starts (R7). -/
def Walker.settleExpires (x : Walker) : Walker :=
  let y := { x with settle := .elapsed }
  if y.phase = .idle ∧ y.mapStale = true then y.startWalk else y

/-- The settle timer is restarted; with a settle time of 0 it expires at the restart itself (R7). DEDUCED (assumption 8).
-/
def Walker.restartSettle (x : Walker) (settle : Nat) : Walker :=
  if settle = 0 then x.settleExpires else { x with settle := .running settle }

/-- A structure write (R6). -/
def Walker.structureWrite (x : Walker) (settle : Nat) : Walker :=
  Walker.restartSettle { x with mapStale := true, rewalk := x.rewalk || x.phase == .walking } settle

/-- The settle timer at a millisecond tick (R7). -/
def SettleTimer.tick : SettleTimer → SettleTimer
  | .running n => .running (n - 1)
  | t => t

/-! ## The walk -/

/-- The end of a walk: offered, discarded, or offered after four discards (R15 to R18). -/
def Walker.walkEnd (x : Walker) (settle : Nat) : Walker :=
  if x.rewalk = false then
    { x with read := none, phase := .offered, mapStale := false, discards := 0 }
  else if x.discards < maxDiscards then
    Walker.restartSettle
      { x with
        read := none
        phase := .idle
        bank := { x.bank with rows := [] }
        discards := x.discards + 1
        discarded := x.discarded + 1 } settle
  else { x with read := none, phase := .offered, discards := 0 }

/-- The walk goes on with the entry after `i`, or ends after entry 255 (R15). -/
def Walker.nextEntry (x : Walker) (settle i : Nat) : Walker :=
  if i + 1 < entryCount then { x with read := some (.entryWord (i + 1)) } else x.walkEnd settle

/-- A chain ends in a fault (R12). -/
def Walker.chainFault (x : Walker) (settle i story slot : Nat) (c : LinkFault) : Walker × List Event :=
  (Walker.nextEntry { x with bank := { x.bank with faults := x.bank.faults + 1 } } settle i, [.linkFault story slot c])

/-- The tests of R12 that need no read of the slot. -/
def Walker.follow (x : Walker) (settle i story slot : Nat) (placed : Bool) : Walker × List Event :=
  if slot = chainEnd then (x.nextEntry settle i, [])
  else if slotCount ≤ slot then x.chainFault settle i story slot .badIndex
  else if x.seen.getLsbD slot then x.chainFault settle i story slot .revisit
  else ({ x with read := some (.slotWord i story slot placed) }, [])

/-- A slot is marked seen (R12). -/
def Walker.markSeen (x : Walker) (slot : Nat) : Walker := { x with seen := x.seen ||| BitVec.twoPow 65024 slot }

/-- A row is appended to the building bank; the first of a story counts the story (R11, R13). -/
def Walker.appendRow (x : Walker) (i story slot : Nat) (kind : RowKind) (placed : Bool) : Walker :=
  { x with
    bank := { x.bank with
      rows := x.bank.rows ++ [⟨slot, i, story, kind, !placed⟩]
      stories := if placed then x.bank.stories else x.bank.stories + 1 } }

/-- A walk read completes with the word `w` (R10 to R14). An entry with SKIP set is passed over without the test of its story id
against the rows placed (R11). DESIGN CHOICE (assumption 33). -/
def Walker.onRead (x : Walker) (settle : Nat) (r : WalkRead) (w : Word) : Walker × List Event :=
  match r with
  | .entryWord i =>
    if loHalf w = 0 then (x.nextEntry settle i, [])
    else ({ x with read := some (.entryFlags i (loHalf w) (hiHalf w)) }, [])
  | .entryFlags i story slot =>
    if skipFlag w then (x.nextEntry settle i, [])
    else if x.bank.rows.any (fun r => r.story == story) then (x.nextEntry settle i, [.dupStory story i])
    else x.follow settle i story slot false
  | .slotWord i story slot placed =>
    if loHalf w = story then ({ x with read := some (.slotKind i story slot (hiHalf w) placed) }, [])
    else x.chainFault settle i story slot .foreign
  | .slotKind i story slot next placed =>
    match rowKindOf (laneOf w 0) with
    | none => (x.markSeen slot).follow settle i story next placed
    | some kind =>
      if x.bank.rows.length < bankRows then
        ((x.markSeen slot).appendRow i story slot kind placed).follow settle i story next true
      else (x.walkEnd settle, [.mapFull story i slot])

/-- The walker's share of a run reset (R21). -/
def Walker.runReset (x : Walker) : Walker :=
  Walker.startWalk { x with rewalk := false, mapStale := true, settle := .stopped, discards := 0 }

/-- The walker when its offered map is installed and the bank that was active is handed back (R19). -/
def Walker.installed (x : Walker) (handedBack : Bank) : Walker :=
  let y := { x with phase := .idle, bank := handedBack }
  if y.mapStale = true ∧ y.settle = .elapsed then y.startWalk else y

/-! ## Commands -/

/-- SETTLE_EXPIRY (R7): takes an expiry that has come; a restart or a stop taken first leaves none to take. -/
def execSettleExpiry (s : State) : Out :=
  if s.rwk.settle = .running 0 then done (s.withRwk s.rwk.settleExpires) else .next s

/-- WALK_READ_DONE (R10): the read in progress completes; a read that a reset has abandoned gives nothing. -/
def execWalkReadDone (s : State) : Out :=
  match inProgress s (.part .rwk) false with
  | none => .next s
  | some a =>
    match a.orphan, s.rwk.read with
    | false, some r =>
      let res := s.rwk.onRead s.sru.set.settle r (readWord s.mem a.wa)
      done (raiseAll ((freePort s).withRwk res.1) res.2)
    | _, _ => done (freePort s)

end Sys2Proof.Machine
end

