-- ==== Sys2Proof/Machine/Holding.lean ====
section
/-! DEFINITION. The edit hold unit (chapter 2): the on-air list, the write decision, releases, and the commands
EHU_BOUNDARY, RELEASE_WRITE_DONE and GUARD_READ_DONE. -/

namespace Sys2Proof.Machine

open Sys2Proof.Config

/-! ## The on-air list -/

/-- The numbers `lo..hi` in the order `c`, `c + 1`, `c - 1`, `c + 2`, and so on (R29, R152). -/
def centreOut (c lo hi : Nat) : List Nat :=
  (List.range (hi + 1 - lo)).flatMap fun d =>
    if d = 0 then (if lo ≤ c ∧ c ≤ hi then [c] else [])
    else (if lo ≤ c + d ∧ c + d ≤ hi then [c + d] else []) ++ (if d ≤ c ∧ lo ≤ c - d ∧ c - d ≤ hi then [c - d] else [])

/-- The routes in use of the LIVE heads, whatever their state (R29). -/
def liveRoutes (q : Quad Hlt) : List Route :=
  ([q.h0, q.h1, q.h2, q.h3].map (·.route)).filter (fun r => r.source == .live)

/-- The on-air list from the LIVE routes, the guard band, the active rows and the row index of P (R29). -/
def onAirList (routes : List Route) (guardBand : Nat) (rows : List Row) (row : Nat) : List OnAir :=
  if routes.isEmpty || rows.isEmpty then []
  else
    let above := (routes.map (·.readRow)).foldl max 0
    let below := (routes.map (fun r => r.rows - r.readRow)).foldl max 0
    let indices := (centreOut row (row - above - guardBand) (min (row + below + guardBand) (rows.length - 1))).take onAirCapacity
    indices.filterMap (fun i => (rows[i]?).map (fun r => ⟨r.slot, r.entry⟩))

/-- The slot is on the on-air list. -/
def onList (l : List OnAir) (slot : Nat) : Bool := l.any (fun a => a.slot == slot)

/-- The list is replaced, and the HELD and MARKED entries of each slot that leaves it become RELEASING (R30, R41). -/
def Ehu.recompute (x : Ehu) (new : List OnAir) : Ehu :=
  { x with
    onAir := new
    queue := x.queue.map (fun e =>
      if onList x.onAir e.slot && !onList new e.slot then { e with state := .releasing } else e) }

/-- The edit hold unit recomputes the on-air list from the state as it stands (R29, R30). -/
def recomputeOnAir (s : State) : State :=
  s.withEhu (s.ehu.recompute
    (onAirList (liveRoutes s.hlt) s.sru.set.guardBand s.sce.active.rows (s.sce.pos / rowUnits)))

/-- The effective edit mode of a slot, none for a slot off the list (R31, R33). -/
def effectiveMode (x : Ehu) (mode : EditMode) (slot : Nat) : Option EditMode :=
  match x.onAir.find? (fun a => a.slot == slot) with
  | none => none
  | some a => some (if x.guardSet.getLsbD a.entry then .shelter else mode)

/-! ## The write decision -/

/-- What the EHU decides for the content lanes of a write (R35). -/
inductive Decision | join | make | full | pass
deriving DecidableEq, Repr

/-- The write decision (R35). -/
def decideContent (x : Ehu) (mode : EditMode) (wa slot : Nat) : Decision :=
  if x.queue.any (fun e => e.wa == wa) then .join
  else
    match effectiveMode x mode slot with
    | some .batch | some .shelter => if x.queue.length < holdCapacity then .make else .full
    | _ => .pass

/-- A join (R36). -/
def Ehu.joinEntry (x : Ehu) (wa : Nat) (lanes : Lanes) (data : Word) : Ehu :=
  { x with
    queue := x.queue.map (fun e =>
      if e.wa = wa then { e with mask := e.mask ||| lanes, data := mergeLanes lanes data e.data } else e) }

/-- A new entry at the tail (R35). -/
def Ehu.makeEntry (x : Ehu) (wa slot : Nat) (lanes : Lanes) (data tick : Word) : Ehu :=
  { x with queue := x.queue ++ [⟨wa, lanes, data, slot, tick, .held⟩] }

/-- The near-full flag brought up to the hold count and the threshold (R45). -/
def nearFullTest (s : State) : State :=
  let res := nearFullStep s.ehu.nearFull s.ehu.queue.length s.sru.set.nearFull
  raiseAll (s.withEhu { s.ehu with nearFull := res.1 }) res.2

/-- The commit lane acts: in BATCH the HELD entries of the slot become MARKED (R39). -/
def Ehu.commit (x : Ehu) (mode : EditMode) (slot : Nat) : Ehu :=
  if effectiveMode x mode slot = some .batch then
    { x with queue := x.queue.map (fun e => if e.slot = slot ∧ e.state = .held then { e with state := .marked } else e) }
  else x

/-- A spill: the slot of the oldest entry that is not RELEASING is put to release whole (R42). -/
def Ehu.spill (x : Ehu) : Ehu × List Event :=
  match x.queue.find? (fun e => e.state != .releasing) with
  | none => (x, [])
  | some o =>
    ({ x with
        queue := x.queue.map (fun e => if e.slot = o.slot then { e with state := .releasing } else e)
        spills := x.spills + 1 },
     [.holdSpill o.slot (x.queue.countP (fun e => e.slot == o.slot && e.state != .releasing))])

/-! ## Boundary and releases -/

/-- Every MARKED entry becomes RELEASING (R40). -/
def Ehu.releaseMarked (x : Ehu) : Ehu :=
  { x with queue := x.queue.map (fun e => if e.state = .marked then { e with state := .releasing } else e) }

/-- The age of an entry in milliseconds (R40, R127). -/
def HoldEntry.age (e : HoldEntry) (tick : Word) : Nat := (tick - e.arrival).toNat

/-- The slots with HELD entries, in the order of their oldest (R40). -/
def Ehu.heldSlots (x : Ehu) : List Nat :=
  (x.queue.filter (fun e => e.state == .held)).foldl (fun l e => if e.slot ∈ l then l else l ++ [e.slot]) []

/-- The slot has a HELD entry whose age has reached the hold limit (R40). -/
def Ehu.expired (x : Ehu) (limit : Nat) (tick : Word) (slot : Nat) : Bool :=
  x.queue.any (fun e => e.state == .held && e.slot == slot && decide (1000 * limit ≤ e.age tick))

/-- One slot expires if it has reached the limit (R40). -/
def Ehu.expireSlot (limit : Nat) (tick : Word) (acc : Ehu × List Event) (slot : Nat) : Ehu × List Event :=
  if acc.1.expired limit tick slot then
    ({ acc.1 with
        queue := acc.1.queue.map (fun e =>
          if e.slot = slot ∧ e.state = .held then { e with state := .releasing } else e)
        expiries := acc.1.expiries + 1 },
     acc.2 ++ [.holdExpired slot (acc.1.queue.countP (fun e => e.slot == slot && e.state == .held))])
  else acc

/-- The EHU's work at a boundary: commit releases, then expiries (R40). -/
def Ehu.boundary (x : Ehu) (limit : Nat) (tick : Word) : Ehu × List Event :=
  if limit = 0 then (x.releaseMarked, [])
  else x.releaseMarked.heldSlots.foldl (Ehu.expireSlot limit tick) (x.releaseMarked, [])

/-- The EHU's share of a run reset (R43). -/
def Ehu.runReset (x : Ehu) : Ehu := { x with queue := x.queue.map (fun e => { e with state := .releasing }) }

/-! ## Stale marks (R153) -/

/-- A view whose entries for a slot become STALE. -/
def staleSlot (view : List ViewEntry) (slot : Nat) : List ViewEntry :=
  view.map (fun v => if v.slot = some slot then { v with sent := false } else v)

/-- A write that memory performs into a line slot marks it STALE in the view of every LIVE head (R153). -/
def staleMark (s : State) (wa : Nat) : State :=
  s.withHlt (s.hlt.map (fun x =>
    if x.route.source = .live then { x with view := staleSlot x.view (slotOf wa) } else x))

/-! ## Commands -/

/-- EHU_BOUNDARY (R40): takes the boundary handed to the EHU. -/
def execEhuBoundary (s : State) : Out :=
  if s.ftu.due.ehu then
    let res := s.ehu.boundary s.sru.set.holdLimit s.ftu.tick
    done (raiseAll ((s.withFtu { s.ftu with due := { s.ftu.due with ehu := false } }).withEhu res.1) res.2)
  else .next s

/-- A write waiting for a spill may be decided afresh once a release has been performed (R42). -/
def Ptp.releasePerformed (p : Ptp) : Ptp :=
  { p with
    carried := p.carried.map (fun c =>
      match c.stage with
      | .spill _ => { c with stage := .spill true }
      | _ => c) }

/-- RELEASE_WRITE_DONE (R38): the entry's bytes reach memory with the mask and data it has now, and it leaves the queue;
an entry that a master reset has discarded is written as it stood (R44). -/
def execReleaseWriteDone (s : State) : Out :=
  match inProgress s (.part .ehu) true with
  | none => .next s
  | some a =>
    match a.orphan, s.ehu.queue.find? (fun e => e.wa == a.wa) with
    | false, some e =>
      let s1 := ((freePort s).withMem (writeWord s.mem e.wa e.mask e.data)).withEhu
        { s.ehu with queue := s.ehu.queue.filter (fun x => x.wa != a.wa) }
      let s2 := nearFullTest (staleMark s1 a.wa)
      done ((s2.withPtp s2.ptp.releasePerformed).withSru { s2.sru with resetLeft := s2.sru.resetLeft - 1 })
    | _, _ => done ((freePort s).withMem (writeWord s.mem a.wa a.lanes a.data))

/-- A guard set bit is loaded (R31). -/
def Ehu.setGuard (x : Ehu) (entry : Nat) (b : Bool) : Ehu :=
  { x with guardSet := if b then x.guardSet ||| BitVec.twoPow 256 entry else x.guardSet &&& ~~~(BitVec.twoPow 256 entry) }

/-- GUARD_READ_DONE (R31): an initialisation read of an entry's flags loads its guard set bit. -/
def execGuardReadDone (s : State) : Out :=
  match inProgress s (.part .ehu) false with
  | none => .next s
  | some a =>
    if a.orphan then done (freePort s)
    else
      done (((freePort s).withEhu (s.ehu.setGuard s.rst.guardNext (guardFlag (readWord s.mem a.wa)))).withRst
        { s.rst with guardNext := s.rst.guardNext + 1 })

end Sys2Proof.Machine
end

