-- ==== Sys2Proof/Machine/Arbitration.lean ====
section
/-! DEFINITION. The helm arbiter (chapter 6): claims, release and succession, staged settings, the flags, the target speed,
and the commands TAKE, RELEASE, PAUSE, RETURN, NEXT_STORY, PREV_STORY and CURVE_LOAD. -/

namespace Sys2Proof.Machine

open Sys2Proof.Config

/-! ## Settings in use and the entry to LOST -/

/-- A claimant setting replaced (R121). -/
def ClaimantSettings.update (x : ClaimantSettings) : ClaimantUpdate → ClaimantSettings
  | .curve b => { x with curveB := b }
  | .deadZone z => { x with deadZone := z }
  | .scale n => { x with scale := n }
  | .claimOnMove on => { x with claimOnMove := on }
  | .debounce k => { x with debounce := k }
  | .pressWindow w => { x with pressWindow := w }
  | .silenceLimit n => { x with silenceLimit := n }
  | .button b e => { x with buttons := x.buttons.set b e }

/-- The two updates are of the same setting (R121). -/
def ClaimantUpdate.sameSetting : ClaimantUpdate → ClaimantUpdate → Bool
  | .curve _, .curve _ => true
  | .deadZone _, .deadZone _ => true
  | .scale _, .scale _ => true
  | .claimOnMove _, .claimOnMove _ => true
  | .debounce _, .debounce _ => true
  | .pressWindow _, .pressWindow _ => true
  | .silenceLimit _, .silenceLimit _ => true
  | .button b _, .button c _ => b == c
  | _, _ => false

/-- A staged value added, in place of an earlier one of the same setting (R121). -/
def stage (l : List ClaimantUpdate) (u : ClaimantUpdate) : List ClaimantUpdate :=
  l.filter (fun v => !u.sameSetting v) ++ [u]

/-- Every press counter cleared and its window stopped, without firing (R95, R101). -/
def Hlr.clearPresses (x : Hlr) : Hlr :=
  { x with buttons := x.buttons.map (fun b => { b with presses := 0, window := none }) }

/-- Every agree count cleared (R95). -/
def Hlr.clearAgree (x : Hlr) : Hlr := { x with buttons := x.buttons.map (fun b => { b with agree := 0 }) }

/-- The receiver's own changes on entering LOST (R101). The rate count stays, so a window that held reports before the loss is
judged with them (R99). DESIGN CHOICE (assumption 34). -/
def Hlr.enterLost (x : Hlr) : Hlr :=
  { x with
    buttons := x.buttons.map (fun _ => resetButton)
    seq := none
    silence := 0
    silenceTimer := none
    silenceDue := false
    link := .lost }

/-- The link enters LOST at its receiver: HELM is handed the deflection 0 and LINK_STATE is raised (R92, R101, R108). -/
def receiverLost (s : State) (l : Link) : State :=
  raise ((s.withLink l (s.hlr.get l).enterLost).withHelm
    { s.helm with lastDeflection := s.helm.lastDeflection.set l 0 }) (.linkState l .lost)

/-- A claimant taken out of both collections; the others keep their order (R113). -/
def Helm.leave (x : Helm) (c : Claimant) : Helm :=
  { x with stack := x.stack.filter (· != c), waiting := x.waiting.filter (· != c) }

/-- The silence counter stands at or above a limit that is not 0, on a link that can be lost (R100). -/
def Hlr.silent (x : Hlr) (limit : Nat) : Bool :=
  (x.link == .suspect || x.link == .active) && limit != 0 && decide (limit ≤ x.silence)

/-- A claimant setting put into use, for a claimant that is IDLE or PENDING, with the effect its rule gives it. A silence
limit already reached loses the link at once, which withdraws a PENDING claimant (R95, R100, R101, R113). -/
def putIntoUse (l : Link) (s : State) (u : ClaimantUpdate) : State :=
  let s1 := s.withHelm { s.helm with inUse := s.helm.inUse.set l ((s.helm.inUse.get l).update u) }
  match u with
  | .button _ _ => s1.withLink l (s1.hlr.get l).clearPresses
  | .debounce _ => s1.withLink l (s1.hlr.get l).clearAgree
  | .silenceLimit n =>
    if (s1.hlr.get l).silent n then
      let s2 := receiverLost s1 l
      s2.withHelm (s2.helm.leave (claimantOf l))
    else s1
  | _ => s1

/-- All staged values of a lever claimant put into use, and the staging emptied (R121). -/
def putStaged (s : State) (l : Link) : State :=
  (s.helm.staged.get l).foldl (putIntoUse l) (s.withHelm { s.helm with staged := s.helm.staged.set l [] })

/-- The staged values of a claimant put into use; AUTO has none (R121). -/
def putStagedOf (s : State) (c : Claimant) : State :=
  match linkOf c with
  | some l => putStaged s l
  | none => s

/-! ## Change of holder -/

/-- A change of holder clears the paused and coast flags and raises HELM_CHANGE (R117). -/
def changeHolder (s : State) (old new : Option Claimant) (cause : HelmCause) : State :=
  raise (s.withHelm { s.helm with holder := new, paused := false, coast := false, cleared := false }) (.helmChange old new cause)

/-- The first of a list with the highest level. -/
def bestOf (level : Claimant → Nat) : List Claimant → Option Claimant
  | [] => none
  | c :: rest =>
    match bestOf level rest with
    | none => some c
    | some d => if level c < level d then some d else some c

/-- The waiting claimants in the order in which ties of level are broken (R112). -/
def Helm.tieOrder (x : Helm) : List Claimant :=
  x.stack ++ [Claimant.operator, Claimant.presenter, Claimant.auto].filter (fun c => decide (c ∈ x.waiting))

/-- The highest-ranking waiting claimant (R112). -/
def successor (s : State) : Option Claimant := bestOf (levelOf s.sru.set) s.helm.tieOrder

/-- The holder gives up the helm to the successor, if any (R111). -/
def releaseHolder (s : State) (c : Claimant) (cause : HelmCause) : State :=
  let s1 := putStagedOf (s.withHelm { s.helm with holder := none }) c
  match successor s1 with
  | none => changeHolder s1 (some c) none cause
  | some d => changeHolder (s1.withHelm (s1.helm.leave d)) (some c) (some d) cause

/-- A PENDING or SUSPENDED claimant becomes IDLE (R113). -/
def withdraw (s : State) (c : Claimant) : State := putStagedOf (s.withHelm (s.helm.leave c)) c

/-- A claimant lets go: the holder releases, a waiting claimant withdraws, an IDLE one has nothing to let go
(R111, R113). -/
def letGo (s : State) (c : Claimant) (cause : HelmCause) : State :=
  match claimState s.helm c with
  | .holding => releaseHolder s c cause
  | .idle => s
  | _ => withdraw s c

/-- A link enters LOST: the receiver's changes, then HELM's (R101). -/
def linkLost (s : State) (l : Link) : State := letGo (receiverLost s l) (claimantOf l) .linkLost

/-- The holder is pushed onto the stack and the claimant takes the helm (R109, R115). -/
def preempt (s : State) (old new : Claimant) (cause : HelmCause) : State :=
  changeHolder (s.withHelm { s.helm with stack := old :: s.helm.stack }) (some old) (some new) cause

/-- The claimant's link is not ACTIVE; AUTO is judged without the link test (R109, R110). -/
def linkRefuses (s : State) (c : Claimant) : Bool :=
  match linkOf c with
  | some l => (s.hlr.get l).link != .active
  | none => false

/-- A claim judged by the five cases of R109. -/
def judgeClaim (s : State) (c : Claimant) : State :=
  if linkRefuses s c then s.withHelm { s.helm with refused := s.helm.refused + 1 }
  else if claimState s.helm c ≠ .idle then s
  else
    match s.helm.holder with
    | none => changeHolder s none (some c) .claim
    | some h =>
      if s.sru.set.helmMode = .nest ∧ levelOf s.sru.set h < levelOf s.sru.set c then preempt s h c .claim
      else putStagedOf (s.withHelm { s.helm with waiting := s.helm.waiting ++ [c] }) c

/-- The preemption test after a level write or a change to NEST (R115, R116). -/
def preemptionTest (s : State) (cause : HelmCause) : State :=
  match s.sru.set.helmMode, s.helm.holder, successor s with
  | .nest, some h, some d =>
    if levelOf s.sru.set h < levelOf s.sru.set d then preempt (s.withHelm (s.helm.leave d)) h d cause else s
  | _, _, _ => s

/-- A change from NEST to SINGLE: every SUSPENDED claimant becomes PENDING and puts its staged settings into use (R116), the top
of the stack first. DESIGN CHOICE (assumption 29). -/
def suspendedToPending (s : State) : State :=
  s.helm.stack.foldl putStagedOf
    (s.withHelm { s.helm with stack := [], waiting := s.helm.waiting ++ s.helm.stack })

/-- HELM's share of a run reset (R124): OPERATOR's staged settings come into use before PRESENTER's. DESIGN CHOICE
(assumption 29). -/
def helmRunReset (s : State) : State :=
  let s1 := s.withHelm
    { s.helm with holder := none, stack := [], waiting := [], paused := false, coast := false, cleared := false }
  let s2 := putStaged (putStaged s1 .operator) .presenter
  match s.helm.holder with
  | none => s2
  | some h => raise s2 (.helmChange (some h) none .runReset)

/-! ## The target speed (R123) -/

/-- The deflection HELM takes from a link: 0 while it is ABSENT or LOST (R92, R123). -/
def steering (s : State) (l : Link) : Int :=
  match (s.hlr.get l).link with
  | .absent | .lost => 0
  | _ => s.helm.lastDeflection.get l

/-- The curve a claimant's settings select, as loaded at the last boundary (R122). -/
def Helm.curveOf (x : Helm) (c : ClaimantSettings) : List Nat := if c.curveB then x.curveB else x.curveA

/-- Steps 1 to 5 of R123: the scaled value for a deflection of magnitude `m` outside the dead zone. -/
def scaledSpeed (curve : List Nat) (scale m : Nat) : Int :=
  let c0 : Int := curve.getD (m / 8) 0
  let c1 : Int := curve.getD (m / 8 + 1) 0
  let base := c0 + ((c1 - c0) * (m % 8 : Nat)).tdiv 8
  (base * scale).tdiv 16

/-- The target of a lever holder (R123). -/
def leverTarget (curve : List Nat) (c : ClaimantSettings) (limit : Nat) (d : Int) : Int :=
  if d.natAbs ≤ c.deadZone then 0
  else
    let v := min (scaledSpeed curve c.scale d.natAbs) (limit : Int)
    if d < 0 then -v else v

/-- The target speed HELM presents, with the speed limit that its own limit uses (R123). -/
def helmTargetWith (limit : Nat) (s : State) : Int :=
  match s.helm.holder with
  | none => 0
  | some h =>
    if s.helm.paused || s.helm.coast || decide (rowCount s = 0) then 0
    else
      match linkOf h with
      | none => clampInt (-(limit : Int)) limit s.sru.set.autoSpeed
      | some l =>
        let c := s.helm.inUse.get l
        leverTarget (s.helm.curveOf c) c limit (steering s l)

/-- The target speed HELM presents at a moment: its limit is the V that the scroll engine loaded at its most recent step
(R123). -/
def helmTarget (s : State) : Int := helmTargetWith s.sce.speedLimit s

/-! ## Actions from the hand units -/

/-- The action a link has fired and that is to be taken next, if it is the one asked for, with the state in which it has
been taken from the link's list (R97). -/
def takeFired (s : State) (l : Link) (a : Action) : Option (Fired × State) :=
  match (s.hlr.get l).fired with
  | [] => none
  | f :: rest => if f.action = a then some (f, s.withLink l { s.hlr.get l with fired := rest }) else none

/-- The flag after a PAUSE of the holder, by its qualifier (R118). A CLEAR taken while the boundary's step is still to be taken
comes together with that step, and holds its own value through it. DEDUCED (assumption 35). -/
def Helm.pause (x : Helm) (q : Qualifier) (stepDue : Bool) : Helm :=
  match q with
  | .toggle => { x with paused := !x.paused, cleared := false }
  | .set => { x with paused := true, cleared := false }
  | .clear => { x with paused := false, cleared := stepDue }

/-- A PAUSE action at HELM (R118). -/
def pauseAction (s : State) (c : Claimant) (q : Qualifier) : State :=
  if s.helm.holder = some c then s.withHelm (s.helm.pause q s.ftu.due.sce) else s

/-- A jump action at HELM: the holder's is passed to the jump request register (R77, R120). -/
def jumpAction (s : State) (c : Claimant) (j : Jump) : State :=
  if s.helm.holder = some c then s.withSce { s.sce with jump := some j } else s

/-! ## Commands -/

/-- TAKE (R109). -/
def execTake (l : Link) (s : State) : Out :=
  match takeFired s l .take with
  | none => .next s
  | some (_, s1) => done (judgeClaim s1 (claimantOf l))

/-- RELEASE (R111, R113). -/
def execRelease (l : Link) (s : State) : Out :=
  match takeFired s l .release with
  | none => .next s
  | some (_, s1) => done (letGo s1 (claimantOf l) .release)

/-- PAUSE (R118). -/
def execPause (l : Link) (s : State) : Out :=
  match takeFired s l .pause with
  | none => .next s
  | some (f, s1) => done (pauseAction s1 (claimantOf l) f.qualifier)

/-- RETURN (R77). -/
def execReturnMark (l : Link) (s : State) : Out :=
  match takeFired s l .returnMark with
  | none => .next s
  | some (_, s1) => done (jumpAction s1 (claimantOf l) .returnMark)

/-- NEXT_STORY (R77). -/
def execNextStory (l : Link) (s : State) : Out :=
  match takeFired s l .nextStory with
  | none => .next s
  | some (_, s1) => done (jumpAction s1 (claimantOf l) .nextStory)

/-- PREV_STORY (R77). -/
def execPrevStory (l : Link) (s : State) : Out :=
  match takeFired s l .prevStory with
  | none => .next s
  | some (_, s1) => done (jumpAction s1 (claimantOf l) .prevStory)

/-- CURVE_LOAD (R122): takes the boundary handed to HELM. -/
def execCurveLoad (s : State) : Out :=
  if s.ftu.due.helm then
    done ((s.withFtu { s.ftu with due := { s.ftu.due with helm := false } }).withHelm
      { s.helm with curveA := s.sru.set.curveA, curveB := s.sru.set.curveB })
  else .next s

end Sys2Proof.Machine
end

