-- ==== Sys2Proof/Machine/HandLinks.lean ====
section
/-! DEFINITION. The hand link receivers (chapter 5): the parser, a valid report, buttons, link health, and the commands
HAND_REPORT, BYTE_GAP, FRAMING_ERROR, PRESS_WINDOW_EXPIRY, RATE_WINDOW_END and SILENCE_TIMER_EXPIRY. -/

namespace Sys2Proof.Machine

open Sys2Proof.Config

/-! ## Buttons -/

/-- The debounce of one button against its bit, with the edge it makes: some true a press, some false a lift (R93). -/
def Button.debounce (x : Button) (k : Nat) (bit : Bool) : Button × Option Bool :=
  if bit = x.pressed then ({ x with agree := 0 }, none)
  else if k ≤ x.agree + 1 then ({ x with pressed := bit, agree := 0 }, some bit)
  else ({ x with agree := x.agree + 1 }, none)

/-- The edge qualifies for the entry (R96). -/
def ButtonEntry.qualifies (e : ButtonEntry) (press : Bool) : Bool :=
  e.action != .none &&
    match e.edge with
    | .press => press
    | .lift => !press
    | .both => true

/-- The press count in use: 1 with edge BOTH (R94). -/
def ButtonEntry.countInUse (e : ButtonEntry) : Nat := if e.edge = .both then 1 else e.count

/-- The qualifier an action carries (R97). -/
def ButtonEntry.qualifierOf (e : ButtonEntry) (press : Bool) : Qualifier :=
  if e.edge = .both then (if press then .set else .clear) else .toggle

/-- A qualifying edge counted, and whether the action fires (R96). -/
def Button.countEdge (x : Button) (n window : Nat) : Button × Bool :=
  if n ≤ x.presses + 1 then ({ x with presses := 0, window := none }, true)
  else if x.presses = 0 then ({ x with presses := 1, window := some window }, false)
  else ({ x with presses := x.presses + 1 }, false)

/-- Button `b` taken from a report's button byte (R93, R96, R97). -/
def Hlr.takeButton (c : ClaimantSettings) (byte : Byte) (x : Hlr) (b : Nat) : Hlr :=
  let e := c.buttons.getD b ⟨.none, .press, 1⟩
  let d := (x.buttons.getD b resetButton).debounce c.debounce (byte.getLsbD b)
  match d.2 with
  | none => { x with buttons := x.buttons.set b d.1 }
  | some press =>
    if e.qualifies press then
      let r := d.1.countEdge e.countInUse c.pressWindow
      { x with
        buttons := x.buttons.set b r.1
        fired := if r.2 then x.fired ++ [⟨e.action, e.qualifierOf press, x.link == .active⟩] else x.fired }
    else { x with buttons := x.buttons.set b d.1 }

/-- The button byte of a valid report, buttons 0 to 7 in order (R93, R97). -/
def Hlr.takeButtons (c : ClaimantSettings) (byte : Byte) (x : Hlr) : Hlr :=
  (List.range 8).foldl (Hlr.takeButton c byte) x

/-! ## A valid report (R91) -/

/-- The sequence number of a valid report compared with the copy (R90). -/
def Hlr.takeSequence (x : Hlr) (n : Byte) : Hlr :=
  match x.seq with
  | some c => { x with seq := some n, seqGaps := if n = c + 1 then x.seqGaps else x.seqGaps + 1 }
  | none => { x with seq := some n }

/-- The silence counter cleared and its 50 ms timer restarted (R100). -/
def Hlr.restartSilence (x : Hlr) : Hlr := { x with silence := 0, silenceTimer := some 50, silenceDue := false }

/-- HELM is handed a deflection; one that leaves the dead zone of an IDLE claimant with claim-on-move makes a claim
(R92, R108). -/
def handDeflection (s : State) (l : Link) (d : Int) : State :=
  let c := s.helm.inUse.get l
  let before := s.helm.lastDeflection.get l
  let s1 := s.withHelm { s.helm with lastDeflection := s.helm.lastDeflection.set l d }
  if claimState s.helm (claimantOf l) = .idle ∧ c.claimOnMove = true ∧ c.deadZone < d.natAbs ∧ before.natAbs ≤ c.deadZone
  then judgeClaim s1 (claimantOf l) else s1

/-- Step 1 of R91: a link that was ABSENT or LOST becomes SUSPECT. -/
def reportFound (s : State) (l : Link) : State :=
  match (s.hlr.get l).link with
  | .absent | .lost => raise (s.withLink l { s.hlr.get l with link := .suspect }) (.linkState l .suspect)
  | _ => s

/-- Step 3 of R91: a report of the holder's link clears coast (R102, R119). -/
def clearCoast (s : State) (l : Link) : State :=
  if s.helm.holder = some (claimantOf l) then s.withHelm { s.helm with coast := false } else s

/-- A valid report taken, in the order of R91. Its eight buttons are judged with the settings in use before any action they fire
is taken (R97). DESIGN CHOICE (assumption 27). -/
def takeReport (s : State) (l : Link) (seq deflection buttons : Byte) : State :=
  let s1 := reportFound s l
  let s2 := clearCoast (s1.withLink l (s1.hlr.get l).restartSilence) l
  let x := s2.hlr.get l
  let s3 := s2.withLink l { x with rateCount := min 255 (x.rateCount + 1), deflection := deflectionOf deflection }
  let s4 := handDeflection s3 l (deflectionOf deflection)
  let s5 := s4.withLink l ((s4.hlr.get l).takeSequence seq)
  s5.withLink l ((s5.hlr.get l).takeButtons (s5.helm.inUse.get l) buttons)

/-! ## The parser -/

/-- A byte examined in HUNT (R88). -/
def huntByte (b : RxByte) : List (Nat × Byte) := if b.data = 0x5A ∧ b.framing = false then [(b.time, b.data)] else []

/-- The bytes after a discarded sync byte examined again: a report begins at the first sync byte among them (R89). -/
def rescan (bytes : List (Nat × Byte)) : List (Nat × Byte) := bytes.dropWhile (fun b => b.2 != 0x5A)

/-- The check-error counter increases (R88, R89). -/
def Hlr.checkError (x : Hlr) (parser : List (Nat × Byte)) : Hlr :=
  { x with parser := parser, checkErrors := x.checkErrors + 1 }

/-- The arrival time of the last byte stored. -/
def lastTime (bytes : List (Nat × Byte)) : Nat :=
  match bytes.getLast? with
  | some b => b.1
  | none => 0

/-- A byte at a hand link receiver (R88, R89). -/
def handByte (l : Link) (s : State) (b : RxByte) : State :=
  let x := s.hlr.get l
  match x.parser with
  | [] => s.withLink l { x with parser := huntByte b }
  | stored =>
    if lastTime stored + handGap < b.time then s.withLink l (x.checkError (huntByte b))
    else if b.framing then s.withLink l (x.checkError [])
    else
      match stored ++ [(b.time, b.data)] with
      | [b0, b1, b2, b3, b4] =>
        if byteSum [b0.2, b1.2, b2.2, b3.2, b4.2] = 0 then
          takeReport (s.withLink l { x with parser := [] }) l b1.2 b2.2 b3.2
        else s.withLink l (x.checkError (rescan [b1, b2, b3, b4]))
      | more => s.withLink l { x with parser := more }

/-- The microsecond count has come at least to a time (R127). DESIGN CHOICE (assumption 6). -/
def Ftu.reach (x : Ftu) (now : Nat) : Ftu := { x with micros := max x.micros now }

/-- Bytes arriving one after another at a hand link receiver; none are taken before initialisation has ended (R86). DESIGN
CHOICE (assumption 18). -/
def handBytes (l : Link) (bytes : List RxByte) (s : State) : State :=
  if s.rst.phase = .running then
    bytes.foldl (fun s b => handByte l (s.withFtu (s.ftu.reach b.time)) b) s
  else s

/-! ## Timers -/

/-- The receiver's timers at a millisecond tick (R96, R99, R100). -/
def Hlr.tick (x : Hlr) : Hlr :=
  { x with
    buttons := x.buttons.map (fun b => { b with window := b.window.map (· - 1) })
    rateTimer := x.rateTimer.map (fun n => if n ≤ 1 then 100 else n - 1)
    rateDue := x.rateDue || x.rateTimer.any (fun n => decide (n ≤ 1))
    silenceTimer := x.silenceTimer.map (fun n => if n ≤ 1 then 50 else n - 1)
    silenceDue := x.silenceDue || x.silenceTimer.any (fun n => decide (n ≤ 1)) }

/-- The link state after a window end (R99). -/
def judgeWindow (st : LinkState) (count : Nat) : LinkState :=
  match st with
  | .suspect | .active => if 4 ≤ count ∧ count ≤ 25 then .active else .suspect
  | _ => st

/-- A rate window ends: the link is judged, the count returns to 0 and the status message is sent (R99, R103). -/
def endWindow (s : State) (l : Link) : State :=
  let x := s.hlr.get l
  let st := judgeWindow x.link x.rateCount
  let s1 := s.withLink l { x with link := st, rateCount := 0, rateDue := false }
  let s2 := if st = x.link then s1 else raise s1 (.linkState l st)
  s2.withLink l { s2.hlr.get l with tx := statusMessage s2 l }

/-- The coast threshold of a silence limit (R102). -/
def coastThreshold (limit : Nat) : Nat := max 1 (limit / 2)

/-- The silence timer expires: the counter increases, then the coast and LOST thresholds are tested, also by an expiry that finds
the counter at 80 (R100, R102). DESIGN CHOICE (assumption 28). -/
def silenceExpires (s : State) (l : Link) : State :=
  let x := s.hlr.get l
  let q := min 80 (x.silence + 1)
  let limit := (s.helm.inUse.get l).silenceLimit
  let s1 := s.withLink l { x with silence := q, silenceDue := false }
  let s2 :=
    if s.helm.holder = some (claimantOf l) ∧ coastThreshold limit ≤ q then s1.withHelm { s1.helm with coast := true } else s1
  if (s2.hlr.get l).silent limit then linkLost s2 l else s2

/-! ## Commands -/

/-- HAND_REPORT (R91): the bytes run through the parser, and a report they end is checked and, if valid, taken. -/
def execHandReport (l : Link) (bytes : List RxByte) (s : State) : Out := done (handBytes l bytes s)

/-- BYTE_GAP (R88): the late byte breaks the partial report and is examined in HUNT. -/
def execByteGap (l : Link) (bytes : List RxByte) (s : State) : Out := done (handBytes l bytes s)

/-- FRAMING_ERROR (R88): the faulty byte breaks the partial report. -/
def execFramingError (l : Link) (bytes : List RxByte) (s : State) : Out := done (handBytes l bytes s)

/-- PRESS_WINDOW_EXPIRY (R96): takes an expiry that has come; the counter is cleared without firing. -/
def execPressWindowExpiry (l : Link) (b : Fin 8) (s : State) : Out :=
  let x := s.hlr.get l
  let k := x.buttons.getD b.val resetButton
  if k.window = some 0 then
    done (s.withLink l { x with buttons := x.buttons.set b.val { k with presses := 0, window := none } })
  else .next s

/-- RATE_WINDOW_END (R99): takes a window end that has come. -/
def execRateWindowEnd (l : Link) (s : State) : Out :=
  if (s.hlr.get l).rateDue then done (endWindow s l) else .next s

/-- SILENCE_TIMER_EXPIRY (R100): takes an expiry that has come. -/
def execSilenceTimerExpiry (l : Link) (s : State) : Out :=
  if (s.hlr.get l).silenceDue then done (silenceExpires s l) else .next s

end Sys2Proof.Machine
end

