-- ==== Sys2Proof/Machine/Scroll.lean ====
section
/-! DEFINITION. The scroll engine with its marks and jumps (chapters 3 and 4): installation, the parts of the frame step,
and the commands FRAME_STEP and MARK. -/

namespace Sys2Proof.Machine

open Sys2Proof.Config

/-! ## Rows and positions -/

/-- The index of a slot in a map. -/
def indexOfSlot (rows : List Row) (slot : Nat) : Option Nat := rows.findIdx? (fun r => r.slot == slot)

/-- Pmax of a map: 4096·(L−1), and 0 for a map of 0 rows (R49). -/
def pMax (rows : List Row) : Nat := rowUnits * (rows.length - 1)

/-- The slot of a row, 0 where there is none. -/
def slotAt (rows : List Row) (i : Nat) : Nat :=
  match rows[i]? with
  | some r => r.slot
  | none => 0

/-- The index of the read row (R49). -/
def Sce.row (x : Sce) : Nat := x.pos / rowUnits

/-! ## Installation (R64 to R69) -/

/-- The first row of a list whose slot stands in the new map, with its index there (R66, R67). -/
def firstSurvivor (new : List Row) : List Row → Option (Nat × Nat)
  | [] => none
  | r :: rest =>
    match indexOfSlot new r.slot with
    | some j => some (r.slot, j)
    | none => firstSurvivor new rest

/-- The position an installation gives before its clamp, and the event of the anchor (R64 to R67). -/
def resolveAnchor (old new : List Row) (pos : Nat) : Nat × List Event :=
  match old[pos / rowUnits]? with
  | none => (0, [])
  | some anchor =>
    match indexOfSlot new anchor.slot with
    | some j => (rowUnits * j + pos % rowUnits, [])
    | none =>
      match firstSurvivor new (old.drop (pos / rowUnits + 1) ++ (old.take (pos / rowUnits)).reverse) with
      | some (slot, j) => (rowUnits * j, [.anchorMoved anchor.slot slot j])
      | none => (0, [.anchorLost anchor.slot (pos / rowUnits)])

/-- The mark's slot is a row of the map (R84). -/
def Mark.survives (rows : List Row) (m : Mark) : Bool := (indexOfSlot rows m.slot).isSome

/-- The MARK_LOST events of an installation, the oldest mark first (R84). -/
def lostMarks (rows : List Row) (marks : List Mark) : List Event :=
  (marks.filter (fun m => !m.survives rows)).map (fun m => .markLost m.slot m.owner m.frame)

/-- The stop-reached flag clears unless the read row is the recorded slot's at fraction 0 (R61). -/
def Sce.testStop (x : Sce) : Sce :=
  match x.stopReached with
  | none => x
  | some slot =>
    if (x.active.rows[x.row]?).any (fun r => r.slot == slot) && x.pos % rowUnits == 0 then x
    else { x with stopReached := none }

/-- The engine's own part of an installation, with its events (R64 to R69, R20). -/
def Sce.install (x : Sce) (new : Bank) : Sce × List Event :=
  let a := resolveAnchor x.active.rows new.rows x.pos
  (Sce.testStop
    { x with
      pos := min a.1 (pMax new.rows)
      speed := if new.rows.isEmpty then 0 else x.speed
      marks := x.marks.filter (Mark.survives new.rows)
      active := new
      relinks := x.relinks + 1 },
   a.2 ++ lostMarks new.rows x.marks ++ [.relinkDone new.rows.length new.stories new.faults new.discards])

/-- An offered map is installed: the engine's part, the bank handed back to the walker, and the on-air list (R19, R30,
R69). -/
def installMap (s : State) : State :=
  let res := s.sce.install s.rwk.bank
  recomputeOnAir (raiseAll ((s.withSce res.1).withRwk (s.rwk.installed s.sce.active)) res.2)

/-! ## Jumps (R79 to R82) -/

/-- The row carries the story-first flag. -/
def firstAt (rows : List Row) (i : Nat) : Bool := (rows[i]?).any (·.first)

/-- The lowest story-first index greater than `i` (R81). -/
def nextFirst (rows : List Row) (i : Nat) : Option Nat :=
  (List.range rows.length).find? (fun n => decide (i < n) && firstAt rows n)

/-- The highest story-first index below `i` (R82). -/
def prevFirst (rows : List Row) (i : Nat) : Option Nat := (List.range i).reverse.find? (firstAt rows)

/-- The first row of the current story of row `i` (R79). -/
def currentFirst (rows : List Row) (i : Nat) : Nat := (prevFirst rows (i + 1)).getD 0

/-- The target of NEXT_STORY (R81). -/
def nextStoryTarget (rows : List Row) (i : Nat) : Nat :=
  match nextFirst rows i with
  | some n => rowUnits * n
  | none => pMax rows

/-- The target of PREV_STORY (R82). -/
def prevStoryTarget (rows : List Row) (i : Nat) : Nat :=
  if currentFirst rows i = i then
    match prevFirst rows i with
    | some p => rowUnits * p
    | none => 0
  else rowUnits * currentFirst rows i

/-- The target of the jump request, if any, and the mark list it leaves (R80 to R82). -/
def Sce.jumpTarget (x : Sce) : Option Nat × List Mark :=
  match x.jump with
  | none => (none, x.marks)
  | some .nextStory => (some (nextStoryTarget x.active.rows x.row), x.marks)
  | some .prevStory => (some (prevStoryTarget x.active.rows x.row), x.marks)
  | some .returnMark =>
    match x.marks.getLast? with
    | none => (none, x.marks)
    | some m =>
      match indexOfSlot x.active.rows m.slot with
      | some j => (some (rowUnits * j + m.fraction), x.marks.dropLast)
      | none => (none, x.marks.dropLast)

/-! ## Limit, ramp, motion, stop rows and clamp (R56 to R62) -/

/-- The speed limit part (R56). -/
def limitSpeed (limit : Nat) (v : Int) : Int := clampInt (-(limit : Int)) limit v

/-- The step is accelerating (R57). -/
def accelerating (v t : Int) : Bool := decide (v = 0 ∨ ((0 < v ∧ v < t) ∨ (v < 0 ∧ t < v)))

/-- The ramp: `v` moves toward `t` by the smaller of the rate and the distance (R58). -/
def rampStep (v t : Int) (rate : Nat) : Int :=
  if v < t then v + min (rate : Int) (t - v) else if t < v then v - min (rate : Int) (v - t) else v

/-- The ramp with the rate of its class (R57, R58). -/
def ramp (accel stopRate : Nat) (v t : Int) : Int := rampStep v t (if accelerating v t then accel else stopRate)

/-- The lowest STOP row a forward motion from `pos` to `new` crosses (R60). -/
def stopRow (rows : List Row) (pos : Nat) (new : Int) : Option Nat :=
  (List.range rows.length).find? (fun i =>
    decide (pos < rowUnits * i ∧ ((rowUnits * i : Nat) : Int) ≤ new) && (rows[i]?).any (fun r => r.kind == .stop))

/-- What motion comes to: the position, the speed, the STOP row taken and the events (R59, R60, R62). -/
structure Moved where
  pos : Nat
  speed : Int
  stop : Option Nat
  events : List Event
deriving DecidableEq, Repr

/-- Motion, stop rows and clamp from `pos` at the speed the ramp left (R59, R60, R62). -/
def moveBy (rows : List Row) (pos : Nat) (v : Int) : Moved :=
  match (if 0 < v then stopRow rows pos (pos + v) else none) with
  | some i =>
    ⟨rowUnits * i, 0, some (slotAt rows i),
      [.stopReached i (slotAt rows i) (((rows[i]?).map (·.story)).getD 0)]⟩
  | none =>
    if (pos : Int) + v < 0 then
      ⟨0, 0, none, if pos = 0 then [] else [.topStop (slotAt rows 0) v]⟩
    else if (pMax rows : Int) < pos + v then
      ⟨pMax rows, 0, none, if pos = pMax rows then [] else [.endStop (slotAt rows (rows.length - 1)) v]⟩
    else ⟨((pos : Int) + v).toNat, v, none, []⟩

/-! ## The frame step (R53) -/

/-- The engine loads the four scroll numbers (R51). -/
def Sce.load (x : Sce) (c : Settings) : Sce :=
  { x with speedLimit := c.speedLimit, accel := c.accel, stopRate := c.stopRate, runout := c.runout }

/-- A step that finds L = 0 after installation (R53). -/
def Sce.emptyStep (x : Sce) : Sce :=
  { x with pos := 0, speed := 0, jump := none, stopReached := none, runoutFlag := false }

/-- The jump part with a target (R55). -/
def Sce.jumpTo (x : Sce) (target : Nat) (marks : List Mark) : Sce :=
  { x with pos := min target (pMax x.active.rows), speed := 0, jump := none, marks := marks }

/-- The speed of a step without a jump: limit and ramp toward the target HELM presents (R54, R56 to R58). -/
def Sce.rampedSpeed (x : Sce) (t : Int) : Int :=
  ramp x.accel x.stopRate (limitSpeed x.speedLimit x.speed) (limitSpeed x.speedLimit t)

/-- Limit, ramp, motion, stop rows and clamp, with their events and whether a STOP row sets the paused flag
(R56 to R62). -/
def Sce.moveStep (x : Sce) (t : Int) (marks : List Mark) : Sce × List Event × Bool :=
  let m := moveBy x.active.rows x.pos (x.rampedSpeed t)
  ({ x with
      pos := m.pos
      speed := m.speed
      jump := none
      marks := marks
      stopReached := if m.stop.isSome then m.stop else x.stopReached }, m.events, m.stop.isSome)

/-- The run-out test at the end of a step (R63). -/
def Sce.runoutTest (x : Sce) : Sce × List Event :=
  let r := runoutStep x.runoutFlag (x.active.rows.length - 1 - x.row) x.row x.runout
  ({ x with runoutFlag := r.1 }, r.2)

/-- The parts of the step after installation on a map that has rows (R55 to R63). -/
def Sce.step (x : Sce) (t : Int) : Sce × List Event × Bool :=
  let moved : Sce × List Event × Bool :=
    match x.jumpTarget with
    | (some target, marks) => (x.jumpTo target marks, [], false)
    | (none, marks) => x.moveStep t marks
  let tested := (moved.1.testStop).runoutTest
  (tested.1, moved.2.1 ++ tested.2, moved.2.2)

/-- HELM after a step: a STOP row reached sets the paused flag (R60), but for a CLEAR taken together with the step, which gives
its own value in either order (R118). DEDUCED (assumption 35). -/
def Helm.stepTaken (x : Helm) (stop : Bool) : Helm := { x with paused := x.paused || (stop && !x.cleared), cleared := false }

/-- The frame step on the state (R53). The target it takes was limited by HELM with the V of the step before, and the engine limits
it again with the V just loaded (R54, R123). DEDUCED (assumption 26). -/
def frameStep (s : State) : State :=
  let s1 := s.withSce (s.sce.load s.sru.set)
  let s2 := if s1.rwk.phase = .offered then installMap s1 else s1
  if rowCount s2 = 0 then (s2.withSce s2.sce.emptyStep).withHelm (s2.helm.stepTaken false)
  else
    let r := s2.sce.step (helmTargetWith s.sce.speedLimit s2)
    raiseAll ((s2.withSce r.1).withHelm (s2.helm.stepTaken r.2.2)) r.2.1

/-- HELM's share of a run reset that waits for the step taken first (R71). -/
def takeLateShare (s : State) : State :=
  if s.sru.helmShare then (helmRunReset s).withSru { (helmRunReset s).sru with helmShare := false } else s

/-! ## Marks (R74, R75) -/

/-- A mark set at the read row, with the events it raises (R75). -/
def Sce.setMark (x : Sce) (owner : Link) (frame : Half) : Sce × List Event :=
  let slot := slotAt x.active.rows x.row
  let kept := x.marks.filter (fun m => m.slot != slot)
  let m : Mark := ⟨slot, x.pos % rowUnits, owner, frame⟩
  if kept.length < markCapacity then ({ x with marks := kept ++ [m] }, [])
  else
    ({ x with marks := kept.drop 1 ++ [m] },
     (kept.take 1).map (fun d => .markDropped d.slot d.owner d.frame))

/-- The frame number of the last boundary whose step the engine has taken: a MARK taken before the step carries it (R76). DEDUCED
(assumption 7). -/
def engineFrame (s : State) : Half := if s.ftu.due.sce then s.ftu.frame - 1 else s.ftu.frame

/-! ## Commands -/

/-- FRAME_STEP (R53): takes the boundary handed to the scroll engine, after HELM's load of the curves and the EHU's
releases of the same boundary (R40, R122). DEDUCED (assumption 7). -/
def execFrameStep (s : State) : Out :=
  if s.ftu.due.sce && !s.ftu.due.helm && !s.ftu.due.ehu then
    done (takeLateShare (frameStep (s.withFtu { s.ftu with due := { s.ftu.due with sce := false } })))
  else .next s

/-- MARK (R74 to R76): ignored from a link that was not ACTIVE when it fired, and while L is 0. -/
def execMark (l : Link) (s : State) : Out :=
  match takeFired s l .mark with
  | none => .next s
  | some (f, s1) =>
    if f.linkActive && !s1.sce.active.rows.isEmpty then
      let r := s1.sce.setMark l (engineFrame s1)
      done (raiseAll (s1.withSce r.1) r.2)
    else done s1

end Sys2Proof.Machine
end

