-- ==== Sys2Proof/Machine/Heads.lean ====
section
/-! DEFINITION. The head link transmitters (chapter 8): messages, the route and the view, the building of rows,
acknowledgements, error injection, and the commands HLT_FRAME, ROW_READ_DONE, MESSAGE_SENT and HEAD_ACK. -/

namespace Sys2Proof.Machine

open Sys2Proof.Config

/-! ## Messages (R140, R141, R162, R185) -/

/-- The top index of a LIVE head (R140). -/
def topIndex (pos readRow : Nat) : Int := (pos / rowUnits : Nat) - (readRow : Int)

/-- The flags byte of a FRAME (R185). -/
def frameFlags (r : Route) : Byte :=
  bitByte r.mirror ||| (bitByte (cardOf r.source).isSome <<< 1) ||| (bitByte (r.source == .test) <<< 2)

/-- A FRAME message without its check byte (R140, R185). -/
def frameBody (frame : Half) (r : Route) (pos : Nat) : List Byte :=
  let live := r.source == .live
  let top : Int := if live then topIndex pos r.readRow else 0
  let fraction : Nat := if live then pos % rowUnits else 0
  let card := (cardOf r.source).isSome
  [0xF1, 12] ++ bytesOfHalf frame ++ bytesOfHalf (.ofInt 16 top) ++ bytesOfHalf (.ofNat 16 fraction) ++
    [.ofNat 8 (if card then 0 else r.readRow), .ofNat 8 (if card then 4 else r.rows), frameFlags r]

/-- A ROW message without its check byte (R141, R185). -/
def rowBody (position : Nat) (kind : RowKind) (first : Bool) (style : Byte) (text : List Byte) : List Byte :=
  [(0xF2 : Byte), BitVec.ofNat 8 (rowCost + text.length), BitVec.ofNat 8 position,
    BitVec.ofNat 8 (rowKindCode kind) ||| (bitByte first <<< 7), style] ++ text

/-- The decimal digits of a number below 100,000, without leading zeros. -/
def decimal (n : Nat) : List Byte :=
  let ds := [n / 10000 % 10, n / 1000 % 10, n / 100 % 10, n / 10 % 10]
  (ds.dropWhile (· == 0) ++ [n % 10]).map (fun d => .ofNat 8 (0x30 + d))

/-- The text of a TEST row (R162). -/
def testText (position : Nat) (frame : Half) : List Byte := decimal position ++ [0x20] ++ decimal frame.toNat

/-! ## The line to the head -/

/-- A message begins on the line; a ROW begun while inject remaining is not 0 ends in the complement of its check (R138,
R164). DEDUCED (assumption 16). -/
def Hlt.begin (x : Hlt) (m : HeadMsg) : Hlt :=
  let injected := m.position.isSome && x.inject != 0
  let check := checkByte m.body
  { x with sending := some ⟨m.position, m.body ++ [if injected then ~~~check else check], injected⟩ }

/-- A message built goes on the line, or waits behind the one on it (R138). -/
def Hlt.enqueue (x : Hlt) (m : HeadMsg) : Hlt :=
  if x.sending.isNone then x.begin m else { x with queued := x.queued ++ [m] }

/-- The message on the line has been sent and the next begins (R138, R164). -/
def Hlt.sent (x : Hlt) (m : Sending) : Hlt :=
  let y := { x with sending := none, inject := if m.injected then x.inject - 1 else x.inject }
  match y.queued with
  | [] => y
  | n :: rest => Hlt.begin { y with queued := rest } n

/-! ## The view table -/

/-- Every entry becomes STALE (R155). -/
def staleAll (view : List ViewEntry) : List ViewEntry := view.map (fun v => { v with sent := false })

/-- A full stale made between boundaries: it leaves the frame being built as it is, and applies from the next boundary, also to
what that frame still sends (R155, R157, R167). DEDUCED (assumption 30). -/
def Hlt.fullStale (x : Hlt) : Hlt := { x with view := staleAll x.view, staleDue := true }

/-- The state of one position set. -/
def markPosition (view : List ViewEntry) (sent : Bool) (p : Nat) : List ViewEntry :=
  view.modify p (fun v => { v with sent := sent })

/-- The slot of a map index, none outside 0..L−1 (R147). -/
def slotAtIndex (rows : List Row) (i : Int) : Option Nat := if i < 0 then none else (rows[i.toNat]?).map (·.slot)

/-- The shift of a view to a new top index (R150). -/
def shiftView (rows : List Row) (view : List ViewEntry) (size : Nat) (previous top : Int) : List ViewEntry :=
  (List.range (size + 1)).map fun p =>
    let slot := slotAtIndex rows (top + p)
    let from_ : Int := p + (top - previous)
    let old := if 0 ≤ from_ ∧ from_ ≤ size then view[from_.toNat]? else none
    ⟨slot, old.any (fun v => v.sent && v.slot == slot)⟩

/-! ## The work of a boundary (R148) -/

/-- Step 1: the previous frame is closed, and a full stale made since applies (R149, R157, R167). -/
def Hlt.close (x : Hlt) : Hlt :=
  let back := (x.queued.filterMap (·.position)) ++ (x.build.map (·.position)).toList
  let view := back.foldl (fun v p => markPosition v false p) x.view
  { x with
    view := if x.staleDue then staleAll view else view
    staleDue := false
    queued := []
    build := none
    todo := [] }

/-- The load is a route change (R145). -/
def routeChanges (old new : Route) : Bool :=
  old.source != new.source || old.rows != new.rows || old.readRow != new.readRow || old.mirror != new.mirror

/-- A route change at the transmitter (R145, R155, R160). -/
def Hlt.changeRoute (x : Hlt) (new : Route) : Hlt :=
  { x with
    route := new
    view := if (cardOf new.source).isSome then List.replicate 4 ⟨none, false⟩ else staleAll x.view
    state := .silent
    lastAck := none
    rejected := none }

/-- The inject count loaded when one has been written since the previous boundary (R164). -/
def loadInject (s : State) (h : Head) : State :=
  if s.sru.set.injectWritten.get h then
    let n := (s.sru.set.routes.get h).inject
    (s.withHead h { s.hlt.get h with inject := n, injectLoaded := n }).withSru
      { s.sru with set := { s.sru.set with injectWritten := s.sru.set.injectWritten.set h false } }
  else s

/-- Step 2: the route entry is loaded and a route change applied; the on-air list is recomputed when the head is or was
LIVE (R30, R145). -/
def loadRoute (s : State) (h : Head) : State :=
  let x := s.hlt.get h
  let new := s.sru.set.routes.get h
  if routeChanges x.route new then
    let s1 := s.withHead h (x.changeRoute new)
    let s2 := if x.state = .silent then s1 else raise s1 (.headState h .silent 0)
    if x.route.source = .live ∨ new.source = .live then recomputeOnAir s2 else s2
  else s.withHead h { x with route := new }

/-- Step 4: the lag is judged in state UP (R156). -/
def judgeLag (s : State) (h : Head) : State :=
  let x := s.hlt.get h
  if x.state = .up ∧ x.route.stall < lagOf s.ftu.frame x then
    raise (s.withHead h { x with state := .stalled, view := staleAll x.view })
      (.headState h .stalled (lagOf s.ftu.frame x))
  else s

/-- Step 5: the view is shifted, for a LIVE head; T of the frame becomes the previous T, whether or not the
head takes the frame (R143, R147, R150). -/
def Hlt.formView (x : Hlt) (rows : List Row) (pos : Nat) : Hlt :=
  if x.route.source = .live then
    let top := topIndex pos x.route.readRow
    { x with view := shiftView rows x.view x.route.rows x.prevTop top, prevTop := top }
  else { x with prevTop := 0 }

/-- A ROW charged to the budget and queued (R152). -/
def Hlt.queueRow (x : Hlt) (p : Nat) (body : List Byte) : Hlt :=
  Hlt.enqueue { x with budgetLeft := x.budgetLeft - (body.length + 1) } ⟨some p, body⟩

/-- The building of rows for this frame stops (R152). -/
def Hlt.stopBuilding (x : Hlt) : Hlt := { x with todo := [], build := none }

/-- Rows are built in the order of the positions until one needs a read or the budget stops it (R152, R160, R162). The view
entry decides whether a row is a GAP row. Where an installation has come between, an entry with a slot whose T + p no longer lies in
the map is sent as TEXT, story-first clear, and a NONE entry whose T + p has come to lie in it is still sent as a GAP row; kind and
story-first are those of the map that is active when the row's building begins (R141). DESIGN CHOICE (assumption 31). -/
def Hlt.buildRows (rows : List Row) (frame : Half) : List Nat → Hlt → Hlt
  | [], x => x.stopBuilding
  | p :: rest, x =>
    match x.route.source with
    | .off => x.stopBuilding
    | .test =>
      let text := testText p frame
      if rowCost + text.length ≤ x.budgetLeft then
        Hlt.buildRows rows frame rest (x.queueRow p (rowBody p .text false 0 text))
      else x.stopBuilding
    | .live =>
      match x.view[p]? with
      | none => Hlt.buildRows rows frame rest x
      | some v =>
        match v.slot with
        | none =>
          if rowCost ≤ x.budgetLeft then
            Hlt.buildRows rows frame rest
              (Hlt.queueRow { x with view := markPosition x.view true p } p (rowBody p .gap false 0 []))
          else x.stopBuilding
        | some n =>
          let r := if x.prevTop + p < 0 then none else rows[(x.prevTop + p).toNat]?
          { x with
            view := markPosition x.view true p
            todo := rest
            build := some ⟨p, .slot n ((r.map (·.kind)).getD .text) (r.any (·.first)), .header⟩ }
    | .card1 | .card2 | .card3 =>
      { x with
        view := markPosition x.view true p
        todo := rest
        build := some ⟨p, .card ((cardOf x.route.source).getD 1) p, .header⟩ }

/-- The centre-out order of a route's positions (R152, R160, R162). -/
def positionsOf (r : Route) : List Nat :=
  if (cardOf r.source).isSome then centreOut 0 0 3 else centreOut r.readRow 0 r.rows

/-- The position's entry is not SENT in the view. -/
def stalePosition (view : List ViewEntry) (p : Nat) : Bool := (view[p]?).any (fun v => !v.sent)

/-- The positions a frame sends, judged at the boundary: every one of a TEST frame, and those STALE of any other (R152, R157,
R160, R162, R167). DEDUCED (assumption 30). -/
def Hlt.stalePositions (x : Hlt) : List Nat :=
  (positionsOf x.route).filter (fun p => x.route.source == .test || stalePosition x.view p)

/-- Steps 7 and 8: the FRAME is built and, in state UP, the rows (R148). -/
def Hlt.buildFrame (x : Hlt) (rows : List Row) (frame : Half) (pos : Nat) : Hlt :=
  let y := Hlt.enqueue { x with budgetLeft := x.route.budget - frameCost } ⟨none, frameBody frame x.route pos⟩
  if y.state = .up then Hlt.buildRows rows frame y.stalePositions y else y

/-- Steps 5 to 8 for a head that is not OFF (R148). -/
def sendFrame (s : State) (h : Head) : State :=
  let s1 := s.withHead h ((s.hlt.get h).formView s.sce.active.rows s.sce.pos)
  let s2 := if (s.hlt.get h).route.source = .live then recomputeOnAir s1 else s1
  s2.withHead h ((s2.hlt.get h).buildFrame s2.sce.active.rows s2.ftu.frame s2.sce.pos)

/-- The work of one transmitter at a boundary (R148). -/
def hltFrame (s : State) (h : Head) : State :=
  let s1 := orphanOf (s.withHead h (s.hlt.get h).close) (.hlt h)
  let s2 := loadInject (loadRoute s1 h) h
  if (s2.hlt.get h).route.source = .off then s2 else sendFrame (judgeLag s2 h) h

/-! ## Reads for rows (R152, R154, R160) -/

/-- A ROW whose text is complete is charged and queued, and the building goes on (R152). -/
def Hlt.finishRow (x : Hlt) (rows : List Row) (frame : Half) (b : RowBuild) (style : Byte) (text : List Byte) : Hlt :=
  let body :=
    match b.source with
    | .slot _ kind first => rowBody b.position kind first style text
    | .card _ _ => rowBody b.position .text false style text
  Hlt.buildRows rows frame x.todo (Hlt.queueRow { x with build := none } b.position body)

/-- A read for a ROW completes with the word `w` (R152). -/
def Hlt.onRead (x : Hlt) (rows : List Row) (frame : Half) (b : RowBuild) (w : Word) : Hlt :=
  match b.stage with
  | .header =>
    let n := match b.source with
      | .slot _ _ _ => usedLength (laneOf w 1)
      | .card _ _ => usedCardLength (laneOf w 0)
    let style : Byte := match b.source with
      | .slot _ _ _ => laneOf w 3
      | .card _ _ => 0
    if x.budgetLeft < rowCost + n then Hlt.stopBuilding { x with view := markPosition x.view false b.position }
    else if n = 0 then x.finishRow rows frame b style []
    else { x with build := some { b with stage := .text style n [] } }
  | .text style n words =>
    let all := words ++ [w]
    if n ≤ 4 * all.length then x.finishRow rows frame b style ((all.flatMap bytesOf).take n)
    else { x with build := some { b with stage := .text style n all } }

/-! ## Acknowledgements (R139, R157, R158) -/

/-- The rejected count compared with the copy, which then takes it; a changed one, which shows a message the head discarded, stales
the whole view (R143, R158). -/
def Hlt.compareRejected (x : Hlt) (count : Byte) : Hlt :=
  match x.rejected with
  | some c => if c = count then x else Hlt.fullStale { x with rejected := some count }
  | none => { x with rejected := some count }

/-- A valid ACK at the transmitter (R157, R158). -/
def takeAck (s : State) (h : Head) (ackFrame : Half) (count : Byte) (ready : Bool) : State :=
  let x := s.hlt.get h
  if x.route.source = .off then s
  else
    let y := { x with lastAck := some ackFrame }
    let z := match x.state with
      | .silent => Hlt.fullStale { y with state := .up, rejected := some count }
      | .stalled => Hlt.compareRejected (Hlt.fullStale { y with state := .up }) count
      | .up => y.compareRejected count
    let z' := if ready then z else z.fullStale
    let s1 := s.withHead h z'
    if x.state = .up then s1 else raise s1 (.headState h .up (lagOf s.ftu.frame z'))

/-- The first suffix that may still become an ACK: it begins with the type byte, and its second byte, if it has come, is
the ACK length (R139). DEDUCED (assumption 17). -/
def ackScan : List (Nat × Byte) → List (Nat × Byte)
  | [] => []
  | b :: rest =>
    if b.2 = 0xC3 ∧ (match rest with
      | [] => true
      | c :: _ => c.2 == 7) = true then b :: rest
    else ackScan rest

/-- A byte at a transmitter's receiver (R139). -/
def ackByte (h : Head) (s : State) (b : RxByte) : State :=
  let x := s.hlt.get h
  let stored := if lastTime x.ackParser + ackGap < b.time then [] else x.ackParser
  if b.framing then s.withHead h { x with ackParser := [] }
  else
    match ackScan (stored ++ [(b.time, b.data)]) with
    | [b0, b1, b2, b3, b4, b5, b6] =>
      if byteSum [b0.2, b1.2, b2.2, b3.2, b4.2, b5.2, b6.2] = 0 then
        takeAck (s.withHead h { x with ackParser := [] }) h (b2.2.setWidth 16 ||| (b3.2.setWidth 16 <<< 8)) b4.2
          (b5.2.getLsbD 0)
      else s.withHead h { x with ackParser := ackScan [b1, b2, b3, b4, b5, b6] }
    | more => s.withHead h { x with ackParser := more }

/-! ## Commands -/

/-- HLT_FRAME (R148): takes the boundary handed to the transmitter, after the scroll engine's step. DEDUCED (assumption
7). -/
def execHltFrame (h : Head) (s : State) : Out :=
  if s.ftu.due.hlt.get h && !s.ftu.due.sce then
    done (hltFrame (s.withFtu { s.ftu with due := { s.ftu.due with hlt := s.ftu.due.hlt.set h false } }) h)
  else .next s

/-- The head whose read is in progress at the port. -/
def readingHead (s : State) : Option (Head × PortAccess) :=
  match s.port.busy with
  | some a =>
    match a.owner with
    | .part (.hlt h) => some (h, a)
    | _ => none
  | none => none

/-- ROW_READ_DONE (R152): the read in progress completes; one whose frame has been closed gives nothing (R149). -/
def execRowReadDone (s : State) : Out :=
  match readingHead s with
  | none => .next s
  | some (h, a) =>
    match a.orphan, (s.hlt.get h).build with
    | false, some b =>
      done ((freePort s).withHead h
        ((s.hlt.get h).onRead s.sce.active.rows s.ftu.frame b (readWord s.mem a.wa)))
    | _, _ => done (freePort s)

/-- MESSAGE_SENT (R164): the check byte of the message on the line has left it. -/
def execMessageSent (h : Head) (s : State) : Out :=
  let x := s.hlt.get h
  match x.sending with
  | none => .next s
  | some m =>
    let s1 := s.withHead h (x.sent m)
    if m.injected ∧ x.inject = 1 then done (raise s1 (.injectDone h x.injectLoaded)) else done s1

/-- HEAD_ACK (R157): the bytes run through the receiver, and the ACK they end is taken; none are taken before
initialisation has ended (R139). -/
def execHeadAck (h : Head) (bytes : List RxByte) (s : State) : Out :=
  if s.rst.phase = .running then
    done (bytes.foldl (fun s b => ackByte h (s.withFtu (s.ftu.reach b.time)) b) s)
  else .next s

end Sys2Proof.Machine
end

