-- ==== Sys2Proof/Machine/PassThrough.lean ====
section
/-! DEFINITION. The processor side of the pass-through port (chapter 9): taking a presented access, routing its lanes,
completion, and the commands STRUCTURE_WRITE, CONTENT_WRITE, COMMIT_WRITE, DROPPED_WRITE, ACCESS_PRESENTED, SPILL_RETRY,
PROCESSOR_WRITE_DONE, PROCESSOR_READ_DONE, ACCESS_WITHDRAWN and HCS_RISES. -/

namespace Sys2Proof.Machine

open Sys2Proof.Config

/-! ## Routing a write (R169, R170) -/

/-- A taken access stands as carried: complete at once when it sends no lane to memory (R169). -/
def carry (s : State) (a : Access) (lanes : Lanes) (withdrawn : Bool) : State :=
  s.withPtp { s.ptp with
    carried := some ⟨a, lanes, if a.write = true ∧ lanes = 0 then .complete else .waiting, withdrawn⟩ }

/-- The commit lane of a write to a slot acts, if it is enabled (R39). -/
def commitActs (s : State) (a : Access) : State :=
  if a.be &&& commitLanes (slotWordOf a.ha.toNat) = 0 then s
  else s.withEhu (s.ehu.commit s.sru.set.editMode (slotOf a.ha.toNat))

/-- A write to a line-store word is decided and its lanes routed (R27, R28, R35, R36, R39, R42). -/
def decideWrite (s : State) (a : Access) (withdrawn : Bool) : State :=
  let wa := a.ha.toNat
  let content := a.be &&& contentLanes (slotWordOf wa)
  let others := a.be &&& ~~~(contentLanes (slotWordOf wa))
  if content = 0 then carry (commitActs s a) a others withdrawn
  else
    match decideContent s.ehu s.sru.set.editMode wa (slotOf wa) with
    | .join => carry (commitActs (s.withEhu (s.ehu.joinEntry wa content a.data)) a) a others withdrawn
    | .make =>
      carry (commitActs (nearFullTest (s.withEhu (s.ehu.makeEntry wa (slotOf wa) content a.data s.ftu.tick))) a) a others
        withdrawn
    | .full =>
      (raiseAll (s.withEhu s.ehu.spill.1) s.ehu.spill.2).withPtp
        { s.ptp with carried := some ⟨a, 0, .spill false, withdrawn⟩ }
    | .pass => carry (commitActs s a) a a.be withdrawn

/-- The rundown walker sees a structure write at the moment it is taken (R5, R6). -/
def structureSeen (s : State) (a : Access) : State :=
  if a.be &&& structureLanesAt a.ha.toNat = 0 then s else s.withRwk (s.rwk.structureWrite s.sru.set.settle)

/-- A presented access is taken (R169, R170, R175). -/
def takeAccess (s : State) (a : Access) : State :=
  if a.write then
    match windowOf a.ha.toNat with
    | .control | .general => carry s a a.be false
    | .report =>
      if a.ha.toNat = consumeWord then carry s a a.be false
      else (carry s a 0 false).withPtp { (carry s a 0 false).ptp with dropped := s.ptp.dropped + 1 }
    | .rundown => carry (structureSeen s a) a a.be false
    | .line => decideWrite (structureSeen s a) a false
  else carry s a 0 false

/-- A standing presentation is taken when nothing is being carried, initialisation has ended, and what the access before it handed
on has been taken, a setting being taken when its write is performed (R169, R177, R186). DEDUCED (assumption 9). -/
def takePresented (s : State) : State :=
  match s.ptp.carried, s.ptp.presented with
  | none, some a =>
    if s.rst.phase = .running ∧ s.ptp.handovers = [] then takeAccess (s.withPtp { s.ptp with presented := none }) a else s
  | _, _ => s

/-- The port goes on after a command that may let a standing presentation be taken: it is taken, and the arbiter acts (R169,
R173). -/
def goOn (s : State) : State := arbitrate (takePresented s)

/-- A command is carried out, and the port goes on. -/
def doneTaking (s : State) : Out := .next (goOn s)

/-- An access is presented: it is taken at once, or stands until it can be (R169, R177). DESIGN CHOICE (assumption 12). -/
def present (s : State) (a : Access) : State := s.withPtp { s.ptp with presented := some a }

/-- The end of a withdrawn access that has come to its end (R169). -/
def endWithdrawn (s : State) : State :=
  match s.ptp.carried with
  | some c => if c.withdrawn = true ∧ c.stage = .complete then s.withPtp { s.ptp with carried := none } else s
  | none => s

/-- The carried access is complete: READY is driven high, or the withdrawn access ends (R169). -/
def completeCarried (s : State) : State :=
  endWithdrawn (s.withPtp { s.ptp with carried := s.ptp.carried.map (fun c => { c with stage := .complete }) })

/-- HCS# rises: after READY the access ends; before READY the access taken is withdrawn; a presentation not taken is gone
(R169, R177). DEDUCED (assumption 12). -/
def hcsHigh (s : State) : State :=
  match s.ptp.carried with
  | none => s.withPtp { s.ptp with presented := none }
  | some c =>
    if c.stage = .complete then s.withPtp { s.ptp with carried := none }
    else if c.withdrawn then s.withPtp { s.ptp with presented := none }
    else s.withPtp { s.ptp with carried := some { c with withdrawn := true } }

/-! ## Completion at the port (R170, R171) -/

/-- A performed read hands its value on: the attention word to the SRU, unless the access was withdrawn (R169, R171). -/
def readHandover (c : Carried) (w : Word) : List Handover :=
  if c.acc.ha.toNat = attentionWord then [.attention w] else []

/-- What a performed write of a control-window or report-window word hands on (R161, R170, R186). -/
def writeHandover (wa : Nat) (w : Word) : List Handover :=
  match windowOf wa with
  | .control =>
    match controlWordAt (4 * wa) with
    | some (.card c r) => [.card c r]
    | some _ => [.setting (4 * wa) w]
    | none => []
  | .report => if wa = consumeWord then [.consume w] else []
  | _ => []

/-- A performed write to byte 4 of a rundown entry updates its guard set bit (R31). -/
def guardUpdate (s : State) (wa : Nat) (lanes : Lanes) (data : Word) : State :=
  if windowOf wa = .rundown ∧ (wa - rundownBase) % 2 = 1 ∧ lanes.getLsbD 0 = true then
    s.withEhu (s.ehu.setGuard ((wa - rundownBase) / 2) (guardFlag data))
  else s

/-- The watchers of a performed processor write (R170). -/
def watchers (s : State) (wa : Nat) (lanes : Lanes) (data : Word) : State :=
  let s1 := guardUpdate s wa lanes data
  let s2 := if windowOf wa = .line then staleMark s1 wa else s1
  s2.withPtp { s2.ptp with handovers := s2.ptp.handovers ++ writeHandover wa (readWord s.mem wa) }

/-- The word a read of a line-store word returns: the entry's masked lanes over memory (R37, R171). -/
def overlay (q : List HoldEntry) (wa : Nat) (w : Word) : Word :=
  match q.find? (fun e => e.wa == wa) with
  | some e => mergeLanes e.mask e.data w
  | none => w

/-! ## Commands -/

/-- STRUCTURE_WRITE (R6). -/
def execStructureWrite (ha : WordAddr) (be : Lanes) (data : Word) (s : State) : Out := doneTaking (present s ⟨true, ha, be, data⟩)

/-- CONTENT_WRITE (R35). -/
def execContentWrite (ha : WordAddr) (be : Lanes) (data : Word) (s : State) : Out := doneTaking (present s ⟨true, ha, be, data⟩)

/-- COMMIT_WRITE (R39). -/
def execCommitWrite (ha : WordAddr) (be : Lanes) (data : Word) (s : State) : Out := doneTaking (present s ⟨true, ha, be, data⟩)

/-- DROPPED_WRITE (R175). -/
def execDroppedWrite (ha : WordAddr) (be : Lanes) (data : Word) (s : State) : Out := doneTaking (present s ⟨true, ha, be, data⟩)

/-- ACCESS_PRESENTED (R169): HWE# low makes a write, HOE# low alone a read, and with neither nothing is presented. -/
def execAccessPresented (p : Presentation) (s : State) : Out :=
  if p.hweLow then doneTaking (present s ⟨true, p.ha, p.be, p.hd⟩)
  else if p.hoeLow then doneTaking (present s ⟨false, p.ha, p.be, p.hd⟩)
  else .next s

/-- SPILL_RETRY (R42): once a release has been performed, the waiting write is decided afresh. -/
def execSpillRetry (s : State) : Out :=
  match s.ptp.carried with
  | some c =>
    if c.stage = .spill true then doneTaking (endWithdrawn (decideWrite s c.acc c.withdrawn)) else .next s
  | none => .next s

/-- PROCESSOR_WRITE_DONE (R170): the write is performed, seen by the watchers of its window, and complete. The port it frees is
granted at once, before HCS# can rise and the next access be taken (R169, R173). DESIGN CHOICE (assumption 36). -/
def execProcessorWriteDone (s : State) : Out :=
  match inProgress s .processor true with
  | none => .next s
  | some a =>
    let s1 := (freePort s).withMem (writeWord s.mem a.wa a.lanes a.data)
    if a.orphan then done s1 else doneTaking (completeCarried (watchers s1 a.wa a.lanes a.data))

/-- PROCESSOR_READ_DONE (R171): the read is performed and the returned word formed. The port it frees is granted at once, before
HCS# can rise and the next access be taken (R169, R173). DESIGN CHOICE (assumption 36). -/
def execProcessorReadDone (s : State) : Out :=
  match inProgress s .processor false with
  | none => .next s
  | some a =>
    match a.orphan, s.ptp.carried with
    | false, some c =>
      let w := overlay s.ehu.queue a.wa (readWord s.mem a.wa)
      if c.withdrawn then doneTaking (completeCarried (freePort s))
      else
        doneTaking (completeCarried ((freePort s).withPtp
          { s.ptp with readData := w, handovers := s.ptp.handovers ++ readHandover c w }))
    | _, _ => done (freePort s)

/-- ACCESS_WITHDRAWN (R169). -/
def execAccessWithdrawn (s : State) : Out := doneTaking (hcsHigh s)

/-- HCS_RISES (R169). -/
def execHcsRises (s : State) : Out := doneTaking (hcsHigh s)

end Sys2Proof.Machine
end

