-- ==== Sys2Proof/Machine/Registers.lean ====
section
/-! DEFINITION. The working settings (chapter 10.1): taking a written word, its clamp and report, and the setting commands
SETTING_WRITE, GUARD_BAND_WRITE, NEAR_FULL_THRESHOLD_WRITE, HELM_MODE_WRITE, LEVEL_WRITE, AUTO_ENABLE_WRITE,
CLAIMANT_SETTING_WRITE, ROUTE_WRITE, CARD_WRITE, ATTENTION_MASK_WRITE and INTERRUPT_ENABLE_WRITE. -/

namespace Sys2Proof.Machine

open Sys2Proof.Config

/-! ## Taking a word -/

/-- The working settings replaced. -/
def withSettings (s : State) (c : Settings) : State := s.withSru { s.sru with set := c }

/-- SETTING_CLAMPED for a word whose effective value differs from it (R187). -/
def reportClamp (s : State) (offset effective : Nat) (w : Word) : State :=
  if effective = w.toNat then s else raise s (.settingClamped offset (.ofNat 16 effective) w)

/-- The hand-over to be taken next, if it is a write of an assigned word for which the function has a meaning, with the
state in which it has been taken. DESIGN CHOICE (assumptions 3, 9). -/
def takeSetting {α : Type} (s : State) (f : ControlWord → Option α) : Option (α × Nat × Word × State) :=
  match s.ptp.handovers with
  | .setting o w :: rest =>
    match (controlWordAt o).bind f with
    | some x => some (x, o, w, s.withPtp { s.ptp with handovers := rest })
    | none => none
  | _ => none

/-! ## Settings with no behaviour of their own (R186, R188) -/

/-- The words SETTING_WRITE takes. -/
def plainWord : ControlWord → Option ControlWord
  | .settle => some .settle
  | .editMode => some .editMode
  | .holdLimit => some .holdLimit
  | .speedLimit => some .speedLimit
  | .accel => some .accel
  | .stopRate => some .stopRate
  | .runout => some .runout
  | .nominal => some .nominal
  | .autoSpeed => some .autoSpeed
  | .curve b k => some (.curve b k)
  | _ => none

/-- The range of a plain number (R179, R180). -/
def plainRange : ControlWord → Nat × Nat
  | .settle => (0, 255)
  | .holdLimit => (0, 600)
  | .speedLimit => (0, 32767)
  | .accel => (1, 4095)
  | .stopRate => (1, 8191)
  | .runout => (0, 255)
  | .nominal => (10000, 50000)
  | _ => (0, 32767)

/-- The plain number a word is taken as. -/
def plainNumber (c : ControlWord) (w : Word) : Nat := clamp (plainRange c).1 (plainRange c).2 w.toNat

/-- AUTO's set speed a word is taken as (R123). -/
def autoSpeedOf (w : Word) : Int := clampInt (-32767) 32767 w.toInt

/-- The working settings after a plain setting has been taken. -/
def Settings.takePlain (x : Settings) (c : ControlWord) (w : Word) : Settings :=
  let n := plainNumber c w
  match c with
  | .settle => { x with settle := n }
  | .editMode => { x with editMode := editModeOf w }
  | .holdLimit => { x with holdLimit := n }
  | .speedLimit => { x with speedLimit := n }
  | .accel => { x with accel := n }
  | .stopRate => { x with stopRate := n }
  | .runout => { x with runout := n }
  | .nominal => { x with nominal := n }
  | .autoSpeed => { x with autoSpeed := autoSpeedOf w }
  | .curve false k => { x with curveA := x.curveA.set k n }
  | .curve true k => { x with curveB := x.curveB.set k n }
  | _ => x

/-- SETTING_CLAMPED for a plain setting (R187); AUTO's set speed is compared and reported signed (R183). -/
def reportPlain (s : State) (o : Nat) (c : ControlWord) (w : Word) : State :=
  match c with
  | .editMode => reportClamp s o (editModeCode (editModeOf w)) w
  | .autoSpeed =>
    if autoSpeedOf w = w.toInt then s else raise s (.settingClamped o (.ofInt 16 (autoSpeedOf w)) w)
  | _ => reportClamp s o (plainNumber c w) w

/-- A plain setting taken: reported if clamped, then handed to its block or held pending (R186 to R188). -/
def takePlainSetting (s : State) (o : Nat) (c : ControlWord) (w : Word) : State :=
  let s1 := reportPlain s o c w
  withSettings s1 (s1.sru.set.takePlain c w)

/-! ## Settings that act at once -/

/-- A guard band taken: the on-air list is recomputed (R30). -/
def takeGuardBand (s : State) (o : Nat) (w : Word) : State :=
  let n := clamp 0 15 w.toNat
  let s1 := reportClamp s o n w
  recomputeOnAir (withSettings s1 { s1.sru.set with guardBand := n })

/-- A near-full threshold taken: it is compared with the hold count (R45). -/
def takeNearFull (s : State) (o : Nat) (w : Word) : State :=
  let n := clamp 1 64 w.toNat
  let s1 := reportClamp s o n w
  nearFullTest (withSettings s1 { s1.sru.set with nearFull := n })

/-- A helm mode taken (R107, R116). -/
def takeHelmMode (s : State) (o : Nat) (w : Word) : State :=
  let m := helmModeOf w
  let s1 := reportClamp s o (helmModeCode m) w
  let s2 := withSettings s1 { s1.sru.set with helmMode := m }
  match s.sru.set.helmMode, m with
  | .nest, .single => suspendedToPending s2
  | .single, .nest => preemptionTest s2 .mode
  | _, _ => s2

/-- The working settings with a claimant's level replaced (R106). -/
def Settings.setLevel (x : Settings) (c : Claimant) (n : Nat) : Settings :=
  match c with
  | .operator => { x with levelOperator := n }
  | .presenter => { x with levelPresenter := n }
  | .auto => { x with levelAuto := n }

/-- The level a word is taken as: 0 keeps the level in use, above 3 is 3 (R106). -/
def levelTaken (x : Settings) (c : Claimant) (w : Word) : Nat := if w = 0 then levelOf x c else min 3 w.toNat

/-- A level taken, and the preemption test (R106, R115). -/
def takeLevel (s : State) (o : Nat) (c : Claimant) (w : Word) : State :=
  let n := levelTaken s.sru.set c w
  let s1 := reportClamp s o n w
  preemptionTest (withSettings s1 (s1.sru.set.setLevel c n)) .level

/-- AUTO's enable word taken: 1 is a claim, 0 withdraws AUTO (R110). -/
def takeAutoEnable (s : State) (o : Nat) (w : Word) : State :=
  let on := flagOf w
  let s1 := reportClamp s o (flagCode on) w
  let s2 := withSettings s1 { s1.sru.set with autoEnable := on }
  if on then judgeClaim s2 .auto else letGo s2 .auto .autoOff

/-- A claimant setting taken: in use at once for an IDLE or PENDING claimant, staged otherwise (R95, R121). -/
def takeClaimantSetting (s : State) (o : Nat) (l : Link) (f : ClaimantField) (w : Word) : State :=
  let t := takeClaimantWord f w
  let s1 := if t.clamped then raise s (.settingClamped o (.ofNat 16 t.effective) w) else s
  match claimState s1.helm (claimantOf l) with
  | .idle | .pending => putIntoUse l s1 t.update
  | _ => s1.withHelm { s1.helm with staged := s1.helm.staged.set l (stage (s1.helm.staged.get l) t.update) }

/-- An attention mask taken; bits 12 to 31 are cleared (R201). -/
def takeMask (s : State) (o : Nat) (w : Word) : State :=
  let m : BitVec 12 := w.setWidth 12
  let s1 := reportClamp s o m.toNat w
  withSettings s1 { s1.sru.set with mask := m }

/-- An interrupt enable taken (R201). -/
def takeIntEnable (s : State) (o : Nat) (w : Word) : State :=
  let s1 := reportClamp s o (flagCode (flagOf w)) w
  withSettings s1 { s1.sru.set with intEnable := flagOf w }

/-! ## Routes (R144, R146) -/

/-- The taken route of a head replaced. -/
def withRoute (s : State) (h : Head) (r : Route) : State :=
  withSettings s { s.sru.set with routes := s.sru.set.routes.set h r }

/-- Another head owns TEST (R146). -/
def testOwnedElsewhere (x : Settings) (h : Head) : Bool :=
  [Head.h0, Head.h1, Head.h2, Head.h3].any (fun k => decide (k ≠ h) && (x.routes.get k).source == .test)

/-- A number of a route field taken: reported if clamped, then stored. -/
def takeRouteNumber (s : State) (o : Nat) (h : Head) (w : Word) (n : Nat) (put : Route → Route) : State :=
  let s1 := reportClamp s o n w
  withRoute s1 h (put (s1.sru.set.routes.get h))

/-- A rows value taken: a taken read row it leaves beyond rows − 1 is clamped too, with its own report (R144, R187).
DEDUCED (assumption 15). -/
def takeRows (s : State) (o : Nat) (h : Head) (w : Word) : State :=
  let n := clamp 4 32 w.toNat
  let s1 := takeRouteNumber s o h w n (fun r => { r with rows := n })
  let r := s1.sru.set.routes.get h
  if n - 1 < r.readRow then
    let o2 := routeOffset h .readRow
    withRoute (raise s1 (.settingClamped o2 (.ofNat 16 (n - 1)) (readWord s1.mem (o2 / 4)))) h { r with readRow := n - 1 }
  else s1

/-- A route field taken; it waits until the transmitter's next boundary (R144 to R146, R164). -/
def takeRoute (s : State) (o : Nat) (h : Head) (f : RouteField) (w : Word) : State :=
  match f with
  | .source =>
    if sourceOf w = .test ∧ testOwnedElsewhere s.sru.set h = true then
      let s1 := raise s (.routeDemoted h w)
      withRoute s1 h { s1.sru.set.routes.get h with source := .off }
    else takeRouteNumber s o h w (sourceCode (sourceOf w)) (fun r => { r with source := sourceOf w })
  | .rows => takeRows s o h w
  | .readRow =>
    let n := clamp 0 ((s.sru.set.routes.get h).rows - 1) w.toNat
    takeRouteNumber s o h w n (fun r => { r with readRow := n })
  | .budget =>
    let n := clamp 256 16384 w.toNat
    takeRouteNumber s o h w n (fun r => { r with budget := n })
  | .stall =>
    let n := clamp 2 60 w.toNat
    takeRouteNumber s o h w n (fun r => { r with stall := n })
  | .mirror => takeRouteNumber s o h w (flagCode (flagOf w)) (fun r => { r with mirror := flagOf w })
  | .inject =>
    let n := clamp 0 255 w.toNat
    let s1 := takeRouteNumber s o h w n (fun r => { r with inject := n })
    withSettings s1 { s1.sru.set with injectWritten := s1.sru.set.injectWritten.set h true }

/-- A write into row `r` of card `c` marks that position STALE at each transmitter whose source in use is that card
(R161). -/
def cardStale (s : State) (c r : Nat) : State :=
  s.withHlt (s.hlt.map (fun x =>
    if cardOf x.route.source = some c then { x with view := markPosition x.view false r } else x))

/-! ## Commands: each takes the hand-over that comes next, if it is its own -/

/-- SETTING_WRITE (R186). -/
def execSettingWrite (s : State) : Out :=
  match takeSetting s plainWord with
  | none => .next s
  | some (c, o, w, s1) => doneTaking (takePlainSetting s1 o c w)

/-- GUARD_BAND_WRITE (R30). -/
def execGuardBandWrite (s : State) : Out :=
  match takeSetting s (fun | .guardBand => some () | _ => none) with
  | none => .next s
  | some (_, o, w, s1) => doneTaking (takeGuardBand s1 o w)

/-- NEAR_FULL_THRESHOLD_WRITE (R45). -/
def execNearFullThresholdWrite (s : State) : Out :=
  match takeSetting s (fun | .nearFull => some () | _ => none) with
  | none => .next s
  | some (_, o, w, s1) => doneTaking (takeNearFull s1 o w)

/-- HELM_MODE_WRITE (R116). -/
def execHelmModeWrite (s : State) : Out :=
  match takeSetting s (fun | .helmMode => some () | _ => none) with
  | none => .next s
  | some (_, o, w, s1) => doneTaking (takeHelmMode s1 o w)

/-- LEVEL_WRITE (R115). -/
def execLevelWrite (s : State) : Out :=
  match takeSetting s (fun | .level c => some c | _ => none) with
  | none => .next s
  | some (c, o, w, s1) => doneTaking (takeLevel s1 o c w)

/-- AUTO_ENABLE_WRITE (R110). -/
def execAutoEnableWrite (s : State) : Out :=
  match takeSetting s (fun | .autoEnable => some () | _ => none) with
  | none => .next s
  | some (_, o, w, s1) => doneTaking (takeAutoEnable s1 o w)

/-- CLAIMANT_SETTING_WRITE (R121). -/
def execClaimantSettingWrite (s : State) : Out :=
  match takeSetting s (fun | .claimant l f => some (l, f) | _ => none) with
  | none => .next s
  | some (lf, o, w, s1) => doneTaking (takeClaimantSetting s1 o lf.1 lf.2 w)

/-- ROUTE_WRITE (R144). -/
def execRouteWrite (s : State) : Out :=
  match takeSetting s (fun | .route h f => some (h, f) | _ => none) with
  | none => .next s
  | some (hf, o, w, s1) => doneTaking (takeRoute s1 o hf.1 hf.2 w)

/-- CARD_WRITE (R161). -/
def execCardWrite (s : State) : Out :=
  match s.ptp.handovers with
  | .card c r :: rest => doneTaking (cardStale (s.withPtp { s.ptp with handovers := rest }) c r)
  | _ => .next s

/-- ATTENTION_MASK_WRITE (R201). -/
def execAttentionMaskWrite (s : State) : Out :=
  match takeSetting s (fun | .mask => some () | _ => none) with
  | none => .next s
  | some (_, o, w, s1) => doneTaking (takeMask s1 o w)

/-- INTERRUPT_ENABLE_WRITE (R201). -/
def execInterruptEnableWrite (s : State) : Out :=
  match takeSetting s (fun | .intEnable => some () | _ => none) with
  | none => .next s
  | some (_, o, w, s1) => doneTaking (takeIntEnable s1 o w)

end Sys2Proof.Machine
end

