-- ==== Sys2Proof/Machine/Reports.lean ====
section
/-! DEFINITION. The report window and the run reset (chapter 10.2 to 10.6): the commands STATUS_SNAPSHOT, ATTENTION_READ,
CONSUME_WRITE, SRU_WRITE_DONE, RUN_RESET and RUN_RESET_DONE. -/

namespace Sys2Proof.Machine

open Sys2Proof.Config

/-! ## Status block, attention word and consume index -/

/-- A snapshot taken: a status write in progress is replaced, its rest not made, and a word of it on the port completes
for itself (R195, R196). DEDUCED (assumption 14). -/
def takeSnapshot (s : State) : State :=
  let write : Option StatusWrite := some ⟨statusWordsOf s, 0⟩
  if s.sru.request = some .status ∧ holdsPort s .sru = true then
    (orphanOf s .sru).withSru { s.sru with status := write, request := none }
  else s.withSru { s.sru with status := write }

/-- The latch bits a read of the attention word clears (R200). -/
def clearedBits (x : Sru) (w : Word) : BitVec 12 := w.setWidth 12 &&& x.latch &&& ~~~x.fresh

/-- A read's value handed to the SRU (R198, R200). -/
def Sru.attentionRead (x : Sru) (w : Word) : Sru :=
  { x with latch := x.latch &&& ~~~(clearedBits x w), attnReq := x.attnReq || clearedBits x w != 0 }

/-- The consume index taken (R204). -/
def Sru.takeConsume (x : Sru) (w : Word) : Sru :=
  { x with consume := if (x.produce - laneOf w 0).toNat ≤ ringRecords then laneOf w 0 else x.produce }

/-! ## The SRU's writes (R193, R203) -/

/-- What the SRU's performed access brings it to (R190, R193, R196, R203). -/
def Sru.performed (x : Sru) (a : SruAccess) : Sru :=
  match a with
  | .record =>
    if x.recordWord < 4 then { x with request := none, recordWord := x.recordWord + 1 }
    else { x with request := none, recordWord := 0, records := x.records.drop 1 }
  | .runResetZero => { x with request := none, zeroDue := false, runState := .idle }
  | .status =>
    { x with
      request := none
      status := x.status.bind (fun w => if w.next + 1 < statusWords then some { w with next := w.next + 1 } else none) }
  | _ => { x with request := none }

/-- What the SRU's performed access brings initialisation to (R193). -/
def Rst.performed (x : Rst) (a : SruAccess) (recordWord : Nat) : Rst :=
  match x.phase, a with
  | .windows, .initWord => { x with initWord := x.initWord + 1 }
  | .firstRecord, .record => if recordWord < 4 then x else { x with phase := .firstAttention }
  | .firstAttention, .attention => { x with phase := .ending }
  | _, _ => x

/-! ## Run reset (R189, R190) -/

/-- Every share is done: RESET with cause RUN is raised and the write of 0 prepared (R190). -/
def finishRunReset (s : State) : State :=
  let s1 := raise s (.reset .run)
  s1.withSru { s1.sru with zeroDue := true }

/-- Every share of the run reset is done and the SRU has not yet raised RESET (R190). -/
def sharesDone (s : State) : Bool :=
  s.sru.runState == .running && s.sru.resetLeft == 0 && !s.sru.helmShare && !s.sru.zeroDue

/-- The scroll engine's share (R71). -/
def Sce.runReset (x : Sce) : Sce :=
  { x with pos := 0, speed := 0, jump := none, marks := [], runoutFlag := false, stopReached := none }

/-- The shares of the walker, the edit hold unit, the scroll engine and the transmitters (R21, R43, R71, R167, R190). -/
def blockShares (s : State) : State :=
  (((((orphanOf s .rwk).withRwk s.rwk.runReset).withEhu s.ehu.runReset).withSce s.sce.runReset).withHlt
    (s.hlt.map Hlt.fullStale)).withSru
      { s.sru with runState := .running, resetLeft := s.ehu.queue.length, zeroDue := false }

/-- A run reset starts (R189, R190). With `helmLate` and a frame step that has arrived with it, HELM takes its share after
the step (R71). DESIGN CHOICE (assumption 21). -/
def startRunReset (s : State) (helmLate : Bool) : State :=
  let s1 := blockShares s
  let s2 :=
    if helmLate && s.ftu.due.sce then s1.withSru { s1.sru with helmShare := true } else helmRunReset s1
  if sharesDone s2 then finishRunReset s2 else s2

/-! ## Commands -/

/-- STATUS_SNAPSHOT (R195): takes the boundary handed to the SRU, after the work of the other blocks. DEDUCED (assumption
7). -/
def execStatusSnapshot (s : State) : Out :=
  if s.ftu.due.sru && !s.ftu.due.sce && !(s.ftu.due.hlt.any id) then
    done (takeSnapshot (s.withFtu { s.ftu with due := { s.ftu.due with sru := false } }))
  else .next s

/-- ATTENTION_READ (R200): takes the hand-over of a completed read of the attention word. -/
def execAttentionRead (s : State) : Out :=
  match s.ptp.handovers with
  | .attention w :: rest => doneTaking ((s.withPtp { s.ptp with handovers := rest }).withSru (s.sru.attentionRead w))
  | _ => .next s

/-- CONSUME_WRITE (R204): takes the hand-over of a performed write of the consume index. -/
def execConsumeWrite (s : State) : Out :=
  match s.ptp.handovers with
  | .consume w :: rest => doneTaking ((s.withPtp { s.ptp with handovers := rest }).withSru (s.sru.takeConsume w))
  | _ => .next s

/-- SRU_WRITE_DONE (R203): the SRU's write is performed. -/
def execSruWriteDone (s : State) : Out :=
  match inProgress s (.part .sru) true with
  | none => .next s
  | some a =>
    let s1 := (freePort s).withMem (writeWord s.mem a.wa a.lanes a.data)
    match a.orphan, s.sru.request with
    | false, some k =>
      done ((s1.withRst (s.rst.performed k s.sru.recordWord)).withSru (s.sru.performed k))
    | _, _ => done s1

/-- RUN_RESET (R189): takes the hand-over of a performed write of the run-reset word; only a 1 in state IDLE starts a run
reset. -/
def execRunReset (helmLate : Bool) (s : State) : Out :=
  match takeSetting s (fun | .runReset => some () | _ => none) with
  | none => .next s
  | some (_, _, w, s1) =>
    if w = 1 ∧ s1.sru.runState = .idle then doneTaking (startRunReset s1 helmLate) else doneTaking s1

/-- RUN_RESET_DONE (R190). -/
def execRunResetDone (s : State) : Out := if sharesDone s then done (finishRunReset s) else .next s

end Sys2Proof.Machine
end

