-- ==== Sys2Proof/Machine/Resets.lean ====
section
/-! DEFINITION. Master reset and initialisation (R176, R177, R192, R193): the commands POWER_ON, POWER_GOOD,
RESET_PIN_FALL, RESET_PIN_RISE, MASTER_RESET, INITIALISATION, INIT_WALK_START and INIT_END. -/

namespace Sys2Proof.Machine

open Sys2Proof.Config

/-- The de-glitch width F, in microseconds, of the straps DGS[1:0] (R176). -/
def deglitchWidth (dgs : BitVec 2) : Nat :=
  match dgs.toNat with
  | 0 => 0
  | 1 => 2
  | 2 => 32
  | _ => 1000

/-- An access in progress as a master reset leaves it: it completes at the memory, a release with the bytes its entry has
(R44, R172, R177). DEDUCED (assumption 11). -/
def orphaned (s : State) (a : PortAccess) : PortAccess :=
  if a.owner = .part .ehu ∧ a.write = true ∧ a.orphan = false then
    match s.ehu.queue.find? (fun e => e.wa == a.wa) with
    | some e => { a with lanes := e.mask, data := e.data, orphan := true }
    | none => { a with orphan := true }
  else { a with orphan := true }

/-- The access the processor goes on presenting when READY falls under it (R177). DEDUCED (assumption 11). -/
def stillPresented (p : Ptp) : Option Access :=
  match p.presented, p.carried with
  | some a, _ => some a
  | none, some c => if c.withdrawn then none else some c.acc
  | none, none => none

/-- A master reset begins: every block takes its reset values, and the script memory and an access in progress stay
(R22, R44, R70, R104, R125, R137, R166, R177, R192). -/
def masterReset (s : State) (cause : ResetCause) : State :=
  { State.reset with
    pending := s.pending
    mem := s.mem
    port := { resetPort with busy := s.port.busy.map (orphaned s) }
    ptp := { resetPtp with presented := stillPresented s.ptp }
    rst := { resetRst with supplyGood := s.rst.supplyGood, pinLow := s.rst.pinLow, cause := cause } }

/-- Initialisation begins: the tick count starts at 0 and the window writes and flag reads begin (R127, R193). -/
def beginInit (s : State) : State :=
  (s.withRst { s.rst with phase := .windows, initWord := 0, guardNext := 0 }).withFtu
    { s.ftu with micros := 0, tickAt := 1000, tick := 0 }

/-- Initialisation begins once the master reset holds with RESET# high and the supply good (R176, R193). -/
def initIfReady (s : State) : State :=
  if s.rst.phase = .held ∧ s.rst.supplyGood = true ∧ s.rst.pinLow = false then beginInit s else s

/-- RESET# returns high after `lowFor` microseconds: a pulse of 2·F or more has reset the part, a shorter one still under
judgment is ignored (R176). DESIGN CHOICE (assumption 10). -/
def pinHigh (s : State) (lowFor : Nat) : State :=
  let s1 :=
    match s.rst.judging with
    | some f => if 2 * f ≤ lowFor then masterReset s .pin else s
    | none => s
  initIfReady (s1.withRst { s1.rst with pinLow := false, judging := none })

/-! ## Commands -/

/-- POWER_ON (R176). -/
def execPowerOn (s : State) : Out :=
  let s1 := masterReset s .power
  done (s1.withRst { s1.rst with supplyGood := false })

/-- POWER_GOOD (R176). -/
def execPowerGood (s : State) : Out := done (initIfReady (s.withRst { s.rst with supplyGood := true }))

/-- RESET_PIN_FALL (R176): the pulse is judged with the F of this edge; while a master reset holds there is nothing to
judge. -/
def execResetPinFall (dgs : BitVec 2) (s : State) : Out :=
  if s.rst.pinLow then .next s
  else
    done (s.withRst { s.rst with
      pinLow := true
      judging := if s.rst.phase = .held then none else some (deglitchWidth dgs) })

/-- MASTER_RESET (R176, R177): no earlier than F after the edge and with RESET# still low. -/
def execMasterReset (lowFor : Nat) (s : State) : Out :=
  match s.rst.judging with
  | some f => if f ≤ lowFor then done (masterReset s .pin) else .next s
  | none => .next s

/-- RESET_PIN_RISE (R176). -/
def execResetPinRise (lowFor : Nat) (s : State) : Out := if s.rst.pinLow then done (pinHigh s lowFor) else .next s

/-- INITIALISATION (R176, R193): RESET# returns high after the master reset. -/
def execInitialisation (s : State) : Out := done (pinHigh s 0)

/-- INIT_WALK_START (R22, R193). -/
def execInitWalkStart (s : State) : Out :=
  if s.rst.phase = .windows ∧ s.rst.initWord = 2048 ∧ s.rst.guardNext = entryCount then
    done (raise ((s.withRwk s.rwk.startWalk).withRst { s.rst with phase := .firstRecord }) (.reset s.rst.cause))
  else .next s

/-- INIT_END (R99, R137, R177, R193) at the microsecond count `now`. -/
def execInitEnd (now : Nat) (s : State) : Out :=
  if s.rst.phase = .ending then
    let f := s.ftu.reach now
    doneTaking
      (((s.withRst { s.rst with phase := .running }).withFtu
          { f with lastBoundary := f.micros, substituteAt := some (f.micros + f.nominal) }).withHlr
        ⟨{ s.hlr.operator with rateTimer := some 100 }, { s.hlr.presenter with rateTimer := some 100 }⟩)
  else .next s

end Sys2Proof.Machine
end

