-- ==== Sys2Proof/Machine/Timing.lean ====
section
/-! DEFINITION. The frame timing unit (chapter 7): the time base, boundaries, sync states, and the commands MS_TICK,
FSYNC_PULSE, SUBSTITUTE_EXPIRY and OVERDUE_DEADLINE. -/

namespace Sys2Proof.Machine

open Sys2Proof.Config

/-- The interval from a time to now as the interval counters measure it (R128). -/
def interval (now since : Nat) : Nat := min intervalHold (now - since)

/-- A period in range of the nominal period (R129). -/
def inRange (n t : Nat) : Bool := decide (n - n / 8 ≤ t ∧ t ≤ n + n / 8)

/-- Every block has a boundary to take. -/
def allDue : BoundaryDue := ⟨true, true, true, ⟨true, true, true, true⟩, true⟩

/-- A boundary at a time, with the pending nominal period put into use (R129, R135). -/
def Ftu.boundary (x : Ftu) (pending time : Nat) : Ftu :=
  { x with
    frame := x.frame + 1
    lastBoundary := time
    goodCount := if x.sync = .acquiring ∧ pending ≠ x.nominal then 0 else x.goodCount
    nominal := pending
    due := allDue }

/-- A boundary of the substitute timer, which restarts from it (R130). -/
def Ftu.substitute (x : Ftu) (pending time : Nat) : Ftu :=
  { (x.boundary pending time).reach time with substituteAt := some (time + pending) }

/-- The pulse that locks: a boundary if half a period has passed, a re-phase otherwise (R132). DEDUCED (assumption 19). -/
def Ftu.lock (x : Ftu) (pending now : Nat) : Ftu :=
  let y := { x with sync := .locked, substituteAt := none }
  if x.nominal ≤ 2 * interval now x.lastBoundary then y.boundary pending now else { y with lastBoundary := now }

/-- A pulse on FSYNC, with the event of a lock (R130 to R133). DEDUCED (assumption 19). -/
def Ftu.pulse (x : Ftu) (pending : Nat) : Ftu × List Event :=
  match x.sync with
  | .substitute => ({ x with sync := .acquiring, goodCount := 0, prevPulse := x.micros }, [])
  | .acquiring =>
    let t := interval x.micros x.prevPulse
    let n := if inRange x.nominal t then x.goodCount + 1 else 0
    let y := { x with lastPeriod := t, prevPulse := x.micros, goodCount := n }
    if 8 ≤ n then
      let z := y.lock pending x.micros
      (z, [.syncState .locked z.nominal t])
    else (y, [])
  | .locked =>
    let t := interval x.micros x.lastBoundary
    if x.nominal - x.nominal / 8 ≤ t then ({ x.boundary pending x.micros with lastPeriod := t }, [])
    else ({ x with glitches := x.glitches + 1 }, [])

/-- The moment of the overdue deadline (R134). -/
def Ftu.deadline (x : Ftu) : Nat := x.lastBoundary + x.nominal + x.nominal / 8

/-- The overdue deadline in LOCKED (R134). -/
def Ftu.overdue (x : Ftu) (pending : Nat) : Ftu :=
  Ftu.substitute { x with sync := .substitute, goodCount := 0 } pending x.deadline

/-- A moment has come when every tick before it has been taken, or the microsecond count has reached it: it then lies no later
than the next tick (R127, R130, R134). DESIGN CHOICE (assumption 6). -/
def Ftu.hasCome (x : Ftu) (time : Nat) : Bool := decide (time ≤ max x.micros x.tickAt)

/-! ## Commands -/

/-- MS_TICK (R127): the tick count rises, the microsecond count comes at least to the tick's moment, the next tick falls 1,000
later, and the timers of the walker and the receivers take the tick. Time does not run while a master reset holds. DESIGN CHOICE
(assumption 6). -/
def execMsTick (s : State) : Out :=
  if s.rst.phase = .held then .next s
  else
    done (((s.withFtu
        { s.ftu.reach s.ftu.tickAt with tick := s.ftu.tick + 1, tickAt := s.ftu.tickAt + 1000 }).withRwk
      { s.rwk with settle := s.rwk.settle.tick }).withHlr ⟨s.hlr.operator.tick, s.hlr.presenter.tick⟩)

/-- FSYNC_PULSE (R128, R130 to R133); FSYNC is not looked at before initialisation has ended. -/
def execFsyncPulse (now : Nat) (s : State) : Out :=
  if s.rst.phase = .running then
    let r := (s.ftu.reach now).pulse s.sru.set.nominal
    done (raiseAll (s.withFtu r.1) r.2)
  else .next s

/-- SUBSTITUTE_EXPIRY (R130): takes the expiry of a running substitute timer whose moment has come. -/
def execSubstituteExpiry (s : State) : Out :=
  match s.ftu.substituteAt with
  | some at_ => if s.ftu.hasCome at_ then done (s.withFtu (s.ftu.substitute s.sru.set.nominal at_)) else .next s
  | none => .next s

/-- OVERDUE_DEADLINE (R134): takes the deadline in LOCKED when its moment has come; a pulse taken first at that moment has made the
boundary and put the deadline off. -/
def execOverdueDeadline (s : State) : Out :=
  if s.ftu.sync = .locked ∧ s.ftu.hasCome s.ftu.deadline = true then
    let f := s.ftu.overdue s.sru.set.nominal
    done (raise (s.withFtu f) (.syncState .substitute f.nominal f.lastPeriod))
  else .next s

end Sys2Proof.Machine
end

