-- ==== Sys2Proof/Machine/Dispatch.lean ====
section
/-! DEFINITION. The meaning of every command, in the order of spec/opcode_table.json. -/

namespace Sys2Proof.Machine

def exec (i : Instr) (s : State) : Host.Outcome State Fault Refusal :=
  match i with
  | .powerOn => Sys2Proof.Machine.execPowerOn s
  | .powerGood => Sys2Proof.Machine.execPowerGood s
  | .resetPinFall dgs => Sys2Proof.Machine.execResetPinFall dgs s
  | .masterReset lowFor => Sys2Proof.Machine.execMasterReset lowFor s
  | .initialisation => Sys2Proof.Machine.execInitialisation s
  | .initWalkStart => Sys2Proof.Machine.execInitWalkStart s
  | .initEnd now => Sys2Proof.Machine.execInitEnd now s
  | .msTick => Sys2Proof.Machine.execMsTick s
  | .fsyncPulse now => Sys2Proof.Machine.execFsyncPulse now s
  | .substituteExpiry => Sys2Proof.Machine.execSubstituteExpiry s
  | .overdueDeadline => Sys2Proof.Machine.execOverdueDeadline s
  | .frameStep => Sys2Proof.Machine.execFrameStep s
  | .curveLoad => Sys2Proof.Machine.execCurveLoad s
  | .ehuBoundary => Sys2Proof.Machine.execEhuBoundary s
  | .hltFrame h => Sys2Proof.Machine.execHltFrame h s
  | .rowReadDone => Sys2Proof.Machine.execRowReadDone s
  | .messageSent h => Sys2Proof.Machine.execMessageSent h s
  | .headAck h bytes => Sys2Proof.Machine.execHeadAck h bytes s
  | .statusSnapshot => Sys2Proof.Machine.execStatusSnapshot s
  | .handReport l bytes => Sys2Proof.Machine.execHandReport l bytes s
  | .take l => Sys2Proof.Machine.execTake l s
  | .release l => Sys2Proof.Machine.execRelease l s
  | .pause l => Sys2Proof.Machine.execPause l s
  | .mark l => Sys2Proof.Machine.execMark l s
  | .returnMark l => Sys2Proof.Machine.execReturnMark l s
  | .nextStory l => Sys2Proof.Machine.execNextStory l s
  | .prevStory l => Sys2Proof.Machine.execPrevStory l s
  | .pressWindowExpiry l b => Sys2Proof.Machine.execPressWindowExpiry l b s
  | .rateWindowEnd l => Sys2Proof.Machine.execRateWindowEnd l s
  | .silenceTimerExpiry l => Sys2Proof.Machine.execSilenceTimerExpiry l s
  | .settleExpiry => Sys2Proof.Machine.execSettleExpiry s
  | .walkReadDone => Sys2Proof.Machine.execWalkReadDone s
  | .structureWrite ha be data => Sys2Proof.Machine.execStructureWrite ha be data s
  | .contentWrite ha be data => Sys2Proof.Machine.execContentWrite ha be data s
  | .spillRetry => Sys2Proof.Machine.execSpillRetry s
  | .commitWrite ha be data => Sys2Proof.Machine.execCommitWrite ha be data s
  | .droppedWrite ha be data => Sys2Proof.Machine.execDroppedWrite ha be data s
  | .processorWriteDone => Sys2Proof.Machine.execProcessorWriteDone s
  | .processorReadDone => Sys2Proof.Machine.execProcessorReadDone s
  | .accessWithdrawn => Sys2Proof.Machine.execAccessWithdrawn s
  | .attentionRead => Sys2Proof.Machine.execAttentionRead s
  | .consumeWrite => Sys2Proof.Machine.execConsumeWrite s
  | .runReset helmLate => Sys2Proof.Machine.execRunReset helmLate s
  | .runResetDone => Sys2Proof.Machine.execRunResetDone s
  | .sruWriteDone => Sys2Proof.Machine.execSruWriteDone s
  | .releaseWriteDone => Sys2Proof.Machine.execReleaseWriteDone s
  | .guardReadDone => Sys2Proof.Machine.execGuardReadDone s
  | .settingWrite => Sys2Proof.Machine.execSettingWrite s
  | .guardBandWrite => Sys2Proof.Machine.execGuardBandWrite s
  | .nearFullThresholdWrite => Sys2Proof.Machine.execNearFullThresholdWrite s
  | .helmModeWrite => Sys2Proof.Machine.execHelmModeWrite s
  | .levelWrite => Sys2Proof.Machine.execLevelWrite s
  | .autoEnableWrite => Sys2Proof.Machine.execAutoEnableWrite s
  | .claimantSettingWrite => Sys2Proof.Machine.execClaimantSettingWrite s
  | .routeWrite => Sys2Proof.Machine.execRouteWrite s
  | .cardWrite => Sys2Proof.Machine.execCardWrite s
  | .attentionMaskWrite => Sys2Proof.Machine.execAttentionMaskWrite s
  | .interruptEnableWrite => Sys2Proof.Machine.execInterruptEnableWrite s
  | .byteGap l bytes => Sys2Proof.Machine.execByteGap l bytes s
  | .framingError l bytes => Sys2Proof.Machine.execFramingError l bytes s
  | .accessPresented p => Sys2Proof.Machine.execAccessPresented p s
  | .hcsRises => Sys2Proof.Machine.execHcsRises s
  | .resetPinRise lowFor => Sys2Proof.Machine.execResetPinRise lowFor s

end Sys2Proof.Machine
end

