-- ==== Sys2Proof/WellFormed.lean ====
section
/-! DEFINITION. The commands as the outside can send them: each row's access or bytes are of the kind its row names. A
command that is not well formed still has the meaning of its access or its bytes. -/

namespace Sys2Proof

open Sys2Proof.Machine Sys2Proof.Config

/-- The bytes arrive one after another. -/
def inOrder : List RxByte → Bool
  | [] => true
  | [_] => true
  | a :: b :: rest => decide (a.time ≤ b.time) && inOrder (b :: rest)

/-- No byte has a framing error. -/
def cleanBytes (bytes : List RxByte) : Bool := bytes.all (fun b => !b.framing)

/-- Bytes that a report or an ACK may be made of: some bytes, in order, none with a framing error (R87, R142). -/
def messageBytes (bytes : List RxByte) : Bool := !bytes.isEmpty && inOrder bytes && cleanBytes bytes

/-- Bytes the last of which may break a report by a gap (R88). -/
def gapBytes (bytes : List RxByte) : Bool :=
  messageBytes bytes &&
    match bytes.reverse with
    | b :: a :: _ => decide (a.time + handGap < b.time)
    | _ => true

/-- Bytes of which the last and no other has a framing error (R88). -/
def framingBytes (bytes : List RxByte) : Bool :=
  inOrder bytes &&
    match bytes.reverse with
    | b :: rest => b.framing && cleanBytes rest
    | [] => false

/-- A write with a structure lane (R5). -/
def structureAccess (ha : WordAddr) (be : Lanes) : Bool := be &&& structureLanesAt ha.toNat != 0

/-- A write with a content lane of a line slot (R27). -/
def contentAccess (ha : WordAddr) (be : Lanes) : Bool :=
  windowOf ha.toNat == .line && be &&& contentLanes (slotWordOf ha.toNat) != 0

/-- A write with the commit lane of a line slot (R39). -/
def commitAccess (ha : WordAddr) (be : Lanes) : Bool :=
  windowOf ha.toNat == .line && be &&& commitLanes (slotWordOf ha.toNat) != 0

/-- A write to a report-window word other than the consume index (R175). -/
def droppedAccess (ha : WordAddr) : Bool := windowOf ha.toNat == .report && ha.toNat != consumeWord

/-- The pins present an access (R169). -/
def presents (p : Presentation) : Bool := p.hweLow || p.hoeLow

/-- The command is one the outside, or the part itself, can send. -/
def Instr.wf : Instr → Bool
  | .structureWrite ha be _ => structureAccess ha be
  | .contentWrite ha be _ => contentAccess ha be
  | .commitWrite ha be _ => commitAccess ha be
  | .droppedWrite ha _ _ => droppedAccess ha
  | .accessPresented p => presents p
  | .handReport _ bytes => messageBytes bytes
  | .headAck _ bytes => messageBytes bytes
  | .byteGap _ bytes => gapBytes bytes
  | .framingError _ bytes => framingBytes bytes
  | .powerOn => true
  | .powerGood => true
  | .resetPinFall _ => true
  | .masterReset _ => true
  | .initialisation => true
  | .initWalkStart => true
  | .initEnd _ => true
  | .msTick => true
  | .fsyncPulse _ => true
  | .substituteExpiry => true
  | .overdueDeadline => true
  | .frameStep => true
  | .curveLoad => true
  | .ehuBoundary => true
  | .hltFrame _ => true
  | .rowReadDone => true
  | .messageSent _ => true
  | .statusSnapshot => true
  | .take _ => true
  | .release _ => true
  | .pause _ => true
  | .mark _ => true
  | .returnMark _ => true
  | .nextStory _ => true
  | .prevStory _ => true
  | .pressWindowExpiry _ _ => true
  | .rateWindowEnd _ => true
  | .silenceTimerExpiry _ => true
  | .settleExpiry => true
  | .walkReadDone => true
  | .spillRetry => true
  | .processorWriteDone => true
  | .processorReadDone => true
  | .accessWithdrawn => true
  | .attentionRead => true
  | .consumeWrite => true
  | .runReset _ => true
  | .runResetDone => true
  | .sruWriteDone => true
  | .releaseWriteDone => true
  | .guardReadDone => true
  | .settingWrite => true
  | .guardBandWrite => true
  | .nearFullThresholdWrite => true
  | .helmModeWrite => true
  | .levelWrite => true
  | .autoEnableWrite => true
  | .claimantSettingWrite => true
  | .routeWrite => true
  | .cardWrite => true
  | .attentionMaskWrite => true
  | .interruptEnableWrite => true
  | .hcsRises => true
  | .resetPinRise _ => true

end Sys2Proof
end

