-- ==== Sys2Proof/Safety.lean ====
section
/-! DEFINITION. What the statements speak of: what a command leaves alone, what it raises, what the processor sees of a word,
and the invariants of a safe run. -/

namespace Sys2Proof.Machine

open Sys2Proof.Config

/-! ## Frames -/

/-- The parts of the state that a command may change. -/
inductive Block | mem | rst | ptp | port | rwk | ehu | sce | hlr | helm | ftu | hlt | sru
deriving DecidableEq, Repr

/-- The processor access carried is as before, or it has just been granted the port (R173). -/
def carriedKept (s t : State) : Prop :=
  t.ptp.carried = s.ptp.carried ∨
    ∃ c, s.ptp.carried = some c ∧ c.stage = .waiting ∧ t.ptp.carried = some { c with stage := .onPort }

/-- The SRU is `x` but for what the arbiter does at a grant: the choice of its next access (R203), and the fresh set and the
request an attention write takes with it (R199). -/
def sruIs (x : Sru) (t : State) : Prop :=
  t.sru = { x with request := t.sru.request, fresh := t.sru.fresh, attnReq := t.sru.attnReq } ∧
    ((t.sru.fresh = x.fresh ∧ t.sru.attnReq = x.attnReq) ∨ (t.sru.fresh = 0 ∧ t.sru.attnReq = false))

/-- Events raised one after another, each with the frame number and tick count that `t` shows (R202). -/
def acceptAll (x : Sru) (t : State) (es : List Event) : Sru := es.foldl (fun y e => y.accept e t.ftu.frame t.ftu.tick) x

/-- The access in progress is as before; when there was one, the arbiter does nothing but clear its count (R172, R173). -/
def portKept (s t : State) : Prop :=
  s.port.busy ≠ none →
    t.port = { s.port with fairness := t.port.fairness } ∧ (t.port.fairness = s.port.fairness ∨ t.port.fairness = 0)

/-- One block is as before. -/
def sameBlock (s t : State) : Block → Prop
  | .mem => t.mem = s.mem
  | .rst => t.rst = s.rst
  | .ptp => t.ptp = { s.ptp with carried := t.ptp.carried } ∧ carriedKept s t
  | .port => portKept s t
  | .rwk => t.rwk = s.rwk
  | .ehu => t.ehu = s.ehu
  | .sce => t.sce = s.sce
  | .hlr => t.hlr = s.hlr
  | .helm => t.helm = s.helm
  | .ftu => t.ftu = s.ftu
  | .hlt => t.hlt = s.hlt
  | .sru => sruIs s.sru t

/-- The command changes no block but those listed, and not the queue of commands. -/
def onlyChanges (bs : List Block) (s t : State) : Prop :=
  t.pending = s.pending ∧ ∀ b : Block, b ∉ bs → sameBlock s t b

/-- The command changes no block but those listed, and at the SRU does nothing but raise these events, in order. -/
def onlyRaises (bs : List Block) (es : List Event) (s t : State) : Prop :=
  onlyChanges (.sru :: bs) s t ∧ sruIs (acceptAll s.sru t es) t

/-- A hand-over has been taken by the SRU or a transmitter, and the rest still waits (R170). -/
def handoverTaken (rest : List Handover) (s u : State) : Prop := u.ptp = { s.ptp with handovers := rest }

/-- The command is carried out and leaves the part as `u`; then the port goes on, taking an access that stands presented and can
now be taken (R169, R173, R186). -/
def leaves (c : Instr) (s u : State) : Prop := exec c s = .next (goOn u)

/-- Bytes of memory after a write of the enabled lanes of one word: every other byte reads as before (R172). -/
def wordWritten (wa : Nat) (lanes : Lanes) (data : Word) (s t : State) : Prop :=
  ∀ a : Nat, readByte t.mem a =
    if a / 4 = wa ∧ lanes.getLsbD (a % 4) = true then laneOf data (a % 4) else readByte s.mem a

/-- A step of the scroll engine may be taken, and HELM has no share of a run reset waiting for it (R40, R71, R122). -/
def stepReady (s : State) : Prop :=
  s.ftu.due.sce = true ∧ s.ftu.due.helm = false ∧ s.ftu.due.ehu = false ∧ s.sru.helmShare = false

/-- A step that installs no map and resolves no jump, on a map that has rows (R53). -/
def plainStep (s : State) : Prop :=
  stepReady s ∧ s.rwk.phase ≠ .offered ∧ s.sce.active.rows ≠ [] ∧ s.sce.jump = none

/-- The speed the limit and the ramp of the next step give, with the scroll numbers that step loads; the target is the one HELM
presents, limited by HELM with the V of the step before (R51, R54, R56, R57, R123). -/
def nextSpeed (s : State) : Int :=
  let x := s.sru.set
  let limited (v : Int) : Int := max (-(x.speedLimit : Int)) (min x.speedLimit v)
  ramp x.accel x.stopRate (limited s.sce.speed) (limited (helmTarget s))

/-- A row is a STOP row that a motion from `pos` to `new` crosses (R60). -/
def crosses (s : State) (i : Nat) (pos : Nat) (new : Int) : Prop :=
  pos < 4096 * i ∧ (4096 * i : Nat) ≤ new ∧ ∃ r, s.sce.active.rows[i]? = some r ∧ r.kind = .stop

/-- The rows left below the read row (R63). -/
def rowsLeft (t : State) : Nat := rowCount t - 1 - t.sce.pos / 4096

/-- The RUNOUT event of a step that leaves the state `t`: raised when the remaining rows are at most the threshold and the
flag was clear (R63). -/
def runoutRise (s t : State) : List Event :=
  if rowsLeft t ≤ s.sru.set.runout ∧ s.sce.runoutFlag = false
  then [.runout (rowsLeft t) (t.sce.pos / 4096) s.sru.set.runout] else []

/-- What a step leaves in the engine besides P, v, the marks and the stop-reached flag: no jump request, the run-out flag as
tested, the scroll numbers as loaded, and the map (R51, R53, R63). -/
def stepEnds (s t : State) : Prop :=
  t.sce = { s.sce with
    pos := t.sce.pos, speed := t.sce.speed, marks := t.sce.marks, stopReached := t.sce.stopReached
    jump := none, runoutFlag := decide (rowsLeft t ≤ s.sru.set.runout)
    speedLimit := s.sru.set.speedLimit, accel := s.sru.set.accel, stopRate := s.sru.set.stopRate
    runout := s.sru.set.runout } ∧
  t.ftu = { s.ftu with due := { s.ftu.due with sce := false } }

/-- A step that reaches no STOP row changes nothing of HELM, but that a CLEAR taken together with it is done with (R60, R118). -/
def helmPassed (s t : State) : Prop := t.helm = { s.helm with cleared := false }

/-- No STOP row is reached: the stop-reached flag is kept exactly while the read row is the recorded slot's, at fraction 0 (R61),
and HELM keeps its flags. -/
def stopKept (s t : State) : Prop :=
  helmPassed s t ∧ t.sce.stopReached = s.sce.stopReached.filter (fun slot =>
    slotAt t.sce.active.rows (t.sce.pos / 4096) == slot && t.sce.pos % 4096 == 0)

/-- No row of the map has the slot. -/
def absent (rows : List Row) (slot : Nat) : Prop := ∀ r ∈ rows, r.slot ≠ slot

/-- The slot stands in the map, first at this index. -/
def firstIndex (rows : List Row) (slot j : Nat) : Prop :=
  (∃ r, rows[j]? = some r ∧ r.slot = slot) ∧ ∀ k r, k < j → rows[k]? = some r → r.slot ≠ slot

/-- The action a link fired first has been taken from its list, and nothing else of the receivers changed (R97). -/
def firedTaken (s : State) (l : Link) (rest : List Fired) (t : State) : Prop :=
  t.hlr = s.hlr.set l { s.hlr.get l with fired := rest }

/-- The same, but for what the link's own staged settings do to its receiver when they come into use (R95, R97, R121). -/
def firedTakenStaged (s : State) (l : Link) (rest : List Fired) (t : State) : Prop :=
  (t.hlr.get l).fired = rest ∧ (∀ m, m ≠ l → t.hlr.get m = s.hlr.get m) ∧
    (s.helm.staged.get l = [] → firedTaken s l rest t)

/-- The working settings with one of the plain numbers replaced, by its offset in the control window (R179). -/
def plainPut (x : Settings) (o n : Nat) : Settings :=
  match o with
  | 0x004 => { x with settle := n }
  | 0x010 => { x with holdLimit := n }
  | 0x018 => { x with speedLimit := n }
  | 0x01C => { x with accel := n }
  | 0x020 => { x with stopRate := n }
  | 0x024 => { x with runout := n }
  | 0x028 => { x with nominal := n }
  | _ => x

/-- The plain settings with their ranges (R179). -/
def plainTable : List (Nat × Nat × Nat) :=
  [(0x004, 0, 255), (0x010, 0, 600), (0x018, 0, 32767), (0x01C, 1, 4095), (0x020, 1, 8191), (0x024, 0, 255),
   (0x028, 10000, 50000)]

/-- The commands that may begin a master reset (R176). -/
def mayReset : Instr → Prop
  | .powerOn | .masterReset _ | .initialisation | .resetPinRise _ => True
  | _ => False

/-- The commands by which a setting, a card row, the consume index or an attention value handed on is taken, or a read is
performed: an access that stands presented may be taken in the same command (R169, R186). -/
def takesStanding : Instr → Prop
  | .settingWrite | .guardBandWrite | .nearFullThresholdWrite | .helmModeWrite | .levelWrite | .autoEnableWrite
  | .claimantSettingWrite | .routeWrite | .cardWrite | .attentionMaskWrite | .interruptEnableWrite | .attentionRead
  | .consumeWrite | .runReset _ | .processorReadDone => True
  | _ => False

/-- The commands by which the processor's own access is taken, split, performed or decided afresh, and those that may begin
a master reset: the others are the part's own (R169). -/
def processorsOwn : Instr → Prop
  | .structureWrite .. | .contentWrite .. | .commitWrite .. | .droppedWrite .. | .accessPresented _ | .spillRetry
  | .processorWriteDone | .accessWithdrawn | .hcsRises | .initEnd _ => True
  | .powerOn | .masterReset _ | .initialisation | .resetPinRise _ => True
  | _ => False

/-- A ROW message without its check byte, from what its building found (R141, R160, R185). -/
def rowMessage (b : RowBuild) (style : Byte) (text : List Byte) : List Byte :=
  let kind : Nat := match b.source with
    | .slot _ kind first => rowKindCode kind + 128 * flagCode first
    | .card _ _ => 0
  [0xF2, .ofNat 8 (6 + text.length), .ofNat 8 b.position, .ofNat 8 kind, style] ++ text

/-- The view when its frame is closed: the positions whose ROW had not begun on the line or was being built are STALE, and every
one when a full stale has been made since the boundary (R149, R157, R167). -/
def closedView (x : Hlt) : List ViewEntry :=
  let abandoned := x.queued.filterMap (·.position) ++ (x.build.map (·.position)).toList
  x.view.zipIdx.map (fun v => { v.1 with sent := v.1.sent && !x.staleDue && !abandoned.contains v.2 })

/-- What a transmitter's receiver may hold of an ACK: nothing, or the type byte and then, if it has come, the length byte (R139). -/
def ackBegins : List (Nat × Byte) → Prop
  | [] => True
  | b :: rest => b.2 = 0xC3 ∧ ∀ c ∈ rest.head?, c.2 = 7

/-- One byte from a head has left its receiver holding these bytes, and nothing else of the transmitter has changed (R139). -/
def ackHeld (s : State) (h : Head) (time : Nat) (bytes : List (Nat × Byte)) (t : State) : Prop :=
  onlyChanges [.hlt, .ftu] s t ∧ t.ftu = { s.ftu with micros := max s.ftu.micros time } ∧
    t.hlt = s.hlt.set h { s.hlt.get h with ackParser := bytes }

/-- The record of an event: its code, its group, and its parameters as its words hold them (R183, R198). -/
def recordIs (e : Event) (code group : Nat) (p1 p2 : Half) (p3 : Word) : Prop :=
  eventGroup e = group ∧ ∀ n frame tick,
    recordWordAt ⟨n, e, frame, tick⟩ 0 = wordOfHalves (.ofNat 16 code) frame ∧ recordWordAt ⟨n, e, frame, tick⟩ 1 = tick ∧
    recordWordAt ⟨n, e, frame, tick⟩ 2 = wordOfHalves p1 p2 ∧ recordWordAt ⟨n, e, frame, tick⟩ 3 = p3

/-! ## The helm -/

/-- The deflection leaves the dead zone of an IDLE claimant with claim-on-move (R108). -/
def movesOut (s : State) (l : Link) (d : Int) : Prop :=
  claimState s.helm (claimantOf l) = .idle ∧ (s.helm.inUse.get l).claimOnMove = true ∧
    (s.helm.inUse.get l).deadZone < d.natAbs ∧ (s.helm.lastDeflection.get l).natAbs ≤ (s.helm.inUse.get l).deadZone

/-- In NEST the claimant's level is above the holder's (R109). -/
def outranks (s : State) (h c : Claimant) : Prop :=
  s.sru.set.helmMode = .nest ∧ levelOf s.sru.set h < levelOf s.sru.set c

/-- The staged values of a claimant are in use and its staging is empty; AUTO has none (R121). -/
def stagedTaken (s : State) (c : Claimant) (t : State) : Prop :=
  match linkOf c with
  | some l =>
    t.helm.staged = s.helm.staged.set l [] ∧
    t.helm.inUse = s.helm.inUse.set l ((s.helm.staged.get l).foldl ClaimantSettings.update (s.helm.inUse.get l))
  | none => t.helm.staged = s.helm.staged ∧ t.helm.inUse = s.helm.inUse

/-- The helm has passed from its holder to the successor, who leaves his collection, or to no one; the flags are clear
(R111, R117). The staged settings and the deflection handed on a loss of link stand apart. -/
def handedOver (s t : State) : Prop :=
  t.helm = { s.helm with
    holder := successor s
    stack := s.helm.stack.filter (fun x => some x != successor s)
    waiting := s.helm.waiting.filter (fun x => some x != successor s)
    paused := false, coast := false, cleared := false
    inUse := t.helm.inUse, staged := t.helm.staged, lastDeflection := t.helm.lastDeflection }

/-- A claimant has left the stack and the pending set, and the holder stays (R113). -/
def withdrawn (s : State) (c : Claimant) (t : State) : Prop :=
  t.helm = { s.helm with
    stack := s.helm.stack.filter (· != c), waiting := s.helm.waiting.filter (· != c)
    inUse := t.helm.inUse, staged := t.helm.staged, lastDeflection := t.helm.lastDeflection }

/-- The holder has been suspended by a waiting claimant (R115, R117). -/
def preempted (s : State) (h d : Claimant) (t : State) : Prop :=
  t.helm = { s.helm with
    holder := some d, stack := h :: s.helm.stack.filter (· != d), waiting := s.helm.waiting.filter (· != d)
    paused := false, coast := false, cleared := false }

/-- The report of a taken word whose effective value differs from it (R187). -/
def clampReport (o effective : Nat) (w : Word) : List Event :=
  if effective = w.toNat then [] else [.settingClamped o (.ofNat 16 effective) w]

/-- The SRU has raised these events and, but for the working settings, done nothing else. -/
def eventsTaken (es : List Event) (s t : State) : Prop := sruIs { acceptAll s.sru t es with set := t.sru.set } t

/-! ## Processor accesses -/

/-- The command presents this write, whole (R169). -/
def presentsWrite (c : Instr) (a : Access) : Prop :=
  a.write = true ∧
    (c = .structureWrite a.ha a.be a.data ∨ c = .contentWrite a.ha a.be a.data ∨ c = .commitWrite a.ha a.be a.data ∨
      c = .droppedWrite a.ha a.be a.data ∨ ∃ oe, c = .accessPresented ⟨a.ha, a.be, a.data, true, oe⟩)

/-- The command presents this access, whole: a write, or a read (R169). -/
def presentsAccess (c : Instr) (a : Access) : Prop :=
  presentsWrite c a ∨ (a.write = false ∧ c = .accessPresented ⟨a.ha, a.be, a.data, false, true⟩)

/-- The port takes a presentation at once: nothing is carried, and nothing that a performed access handed on is still to be taken
(R169, R177, R186). -/
def readyToTake (s : State) : Prop := s.rst.phase = .running ∧ s.ptp.carried = none ∧ s.ptp.handovers = []

/-- The access stands as carried with these lanes, `gone` if it has been withdrawn: a write that sends no lane to memory is
complete, which ends a withdrawn one, and any other access waits for the port or has been granted it (R169, R173). -/
def carriedAs (gone : Bool) (t : State) (a : Access) (lanes : Lanes) : Prop :=
  if a.write = true ∧ lanes = 0 then t.ptp.carried = if gone then none else some ⟨a, lanes, .complete, false⟩
  else t.ptp.carried = some ⟨a, lanes, .waiting, gone⟩ ∨ t.ptp.carried = some ⟨a, lanes, .onPort, gone⟩

/-- The walker sees a structure write, and is left alone by any other (R5, R6). -/
def walkerSees (s : State) (a : Access) (t : State) : Prop :=
  t.rwk = if structureAccess a.ha a.be then s.rwk.structureWrite s.sru.set.settle else s.rwk

/-- The slot is on air in effective mode BATCH (R31, R33). -/
def batched (s : State) (slot : Nat) : Prop :=
  ∃ o, s.ehu.onAir.find? (fun x => x.slot == slot) = some o ∧ s.ehu.guardSet.getLsbD o.entry = false ∧
    s.sru.set.editMode = .batch

/-- The slot is on air in effective mode BATCH or SHELTER: a GUARD entry shelters, whatever the global mode (R31, R33). -/
def holding (s : State) (slot : Nat) : Prop :=
  ∃ o, s.ehu.onAir.find? (fun x => x.slot == slot) = some o ∧
    (s.ehu.guardSet.getLsbD o.entry = true ∨ s.sru.set.editMode ≠ .pass)

/-- The queue after the commit lane of a write has acted on it, if the write enables it (R39). -/
def commitMarks (s : State) (a : Access) (q q' : List HoldEntry) : Prop :=
  (commitAccess a.ha a.be = true → batched s (slotOf a.ha.toNat) → q' = q.map (fun e =>
    if e.slot = slotOf a.ha.toNat ∧ e.state = .held then { e with state := .marked } else e)) ∧
  (commitAccess a.ha a.be = false ∨ ¬batched s (slotOf a.ha.toNat) → q' = q)

/-- The four ways of a write with content lanes, `gone` if it has been withdrawn (R35, R36, R39, R42, R45, R169). -/
def decidedWrite (gone : Bool) (s t : State) (a : Access) : Prop :=
  let wa := a.ha.toNat
  let slot := slotOf wa
  let content := a.be &&& contentLanes (slotWordOf wa)
  let others := a.be &&& ~~~(contentLanes (slotWordOf wa))
  let q := s.ehu.queue
  let limit := s.sru.set.nearFull
  let held : Prop := ∃ e ∈ q, e.wa = wa
  (held → carriedAs gone t a others ∧ sruIs s.sru t ∧ t.ehu = { s.ehu with queue := t.ehu.queue } ∧
    commitMarks s a (q.map (fun e =>
      if e.wa = wa then { e with mask := e.mask ||| content, data := mergeLanes content a.data e.data } else e))
      t.ehu.queue) ∧
  (¬held → holding s slot → q.length < 64 → carriedAs gone t a others ∧
    t.ehu = { s.ehu with queue := t.ehu.queue, nearFull := decide (limit ≤ q.length + 1) } ∧
    commitMarks s a (q ++ [⟨wa, content, a.data, slot, s.ftu.tick, .held⟩]) t.ehu.queue ∧
    sruIs (acceptAll s.sru t
      (if limit ≤ q.length + 1 ∧ s.ehu.nearFull = false then [.holdNear (q.length + 1) limit] else [])) t) ∧
  (¬held → holding s slot → 64 ≤ q.length → t.ptp.carried = some ⟨a, 0, .spill false, gone⟩ ∧
    ((∀ e ∈ q, e.state = .releasing) → t.ehu = s.ehu ∧ sruIs s.sru t) ∧
    (∀ older o newer, q = older ++ o :: newer → (∀ e ∈ older, e.state = .releasing) → o.state ≠ .releasing →
      t.ehu = { s.ehu with
        spills := s.ehu.spills + 1
        queue := q.map (fun e => if e.slot = o.slot then { e with state := .releasing } else e) } ∧
      sruIs (acceptAll s.sru t
        [.holdSpill o.slot (q.countP (fun e => e.slot == o.slot && e.state != .releasing))]) t)) ∧
  (¬held → ¬holding s slot → carriedAs gone t a a.be ∧ sruIs s.sru t ∧ t.ehu = { s.ehu with queue := t.ehu.queue } ∧
    commitMarks s a q t.ehu.queue)

/-! ## What the processor sees -/

/-- The word a processor read would return (R37, R171). -/
def processorView (s : State) (wa : Nat) : Word := overlay s.ehu.queue wa (readWord s.mem wa)

/-! ## Invariants -/

/-- The script memory has its canonical form. -/
def MemOk (s : State) : Prop := s.mem.wf = true

/-- The claimants' states (R105): no claimant stands twice, none waits behind the helm when no one holds it, and AUTO has no
part in it while its enable word is 0. -/
def HelmOk (s : State) : Prop :=
  (s.helm.holder.toList ++ s.helm.stack ++ s.helm.waiting).Nodup ∧
  (s.helm.holder = none → s.helm.stack = [] ∧ s.helm.waiting = []) ∧
  (s.sru.set.autoEnable = false → .auto ∉ s.helm.holder.toList ++ s.helm.stack ++ s.helm.waiting)

/-- A hold entry as R34 gives it: a line-store word, its slot, and a non-empty set of the word's content lanes. -/
def entryOk (e : HoldEntry) : Prop :=
  lineBase ≤ e.wa ∧ e.wa < 2 ^ 21 ∧ e.slot = slotOf e.wa ∧ e.mask ≠ 0 ∧ e.mask &&& ~~~(contentLanes (slotWordOf e.wa)) = 0

/-- The hold queue (R34): at most 64 entries, no two for one word, each as R34 gives it; and the access that waits for a
spill is a write to the line store (R42). -/
def HoldOk (s : State) : Prop :=
  s.ehu.queue.length ≤ holdCapacity ∧ (s.ehu.queue.map (·.wa)).Nodup ∧ (∀ e ∈ s.ehu.queue, entryOk e) ∧
  (∀ c ∈ s.ptp.carried, ∀ b, c.stage = .spill b → c.acc.write = true ∧ windowOf c.acc.ha.toNat = .line)

/-- The write the EHU has in progress for itself is the release of an entry of the queue (R38). -/
def ReleaseOk (s : State) : Prop :=
  ∀ a ∈ s.port.busy, a.owner = .part .ehu → a.write = true → a.orphan = false → ∃ e ∈ s.ehu.queue, e.wa = a.wa

/-- A bank (R3, R23): at most 8,192 rows, no slot twice, slots and entries that exist, and row 0 the first of a story
(R79). -/
def bankOk (b : Bank) : Prop :=
  b.rows.length ≤ bankRows ∧ (b.rows.map (·.slot)).Nodup ∧ (∀ r ∈ b.rows, r.slot < slotCount ∧ r.entry < entryCount) ∧
  (∀ r ∈ b.rows.head?, r.first = true)

/-- The read a walk makes next names an entry that exists and a slot not yet seen, and says a row of the story is placed only
when the bank holds one (R10, R12). -/
def readOk (x : Walker) : WalkRead → Prop
  | .entryWord i => i < entryCount
  | .entryFlags i _ _ => i < entryCount
  | .slotWord i _ n placed => i < entryCount ∧ n < slotCount ∧ x.seen.getLsbD n = false ∧ (placed = true → x.bank.rows ≠ [])
  | .slotKind i _ n _ placed => i < entryCount ∧ n < slotCount ∧ x.seen.getLsbD n = false ∧ (placed = true → x.bank.rows ≠ [])

/-- The two map banks, and the walk that fills one of them (R3, R12, R23). -/
def MapOk (s : State) : Prop :=
  bankOk s.sce.active ∧ bankOk s.rwk.bank ∧
  (s.rwk.phase = .walking → ∀ r ∈ s.rwk.bank.rows, s.rwk.seen.getLsbD r.slot = true) ∧
  (∀ r ∈ s.rwk.read, s.rwk.phase = .walking ∧ readOk s.rwk r)

/-- The position and the speed (R49, R50, R56). -/
def PositionOk (s : State) : Prop :=
  (rowCount s = 0 → s.sce.pos = 0 ∧ s.sce.speed = 0) ∧ s.sce.pos ≤ pMax s.sce.active.rows ∧
  s.sce.speed.natAbs ≤ s.sce.speedLimit ∧ s.sce.speedLimit ≤ 32767 ∧ s.sru.set.speedLimit ≤ 32767

/-- The mark list (R73): at most 8 marks, no two on one slot, each on a slot of the active map, with a fraction of a row. -/
def MarksOk (s : State) : Prop :=
  s.sce.marks.length ≤ markCapacity ∧ (s.sce.marks.map (·.slot)).Nodup ∧
  (∀ m ∈ s.sce.marks, m.slot ∈ s.sce.active.rows.map (·.slot) ∧ m.fraction < rowUnits)

/-- A route within its ranges (R144). -/
def routeOk (r : Route) : Prop :=
  4 ≤ r.rows ∧ r.rows ≤ 32 ∧ r.readRow < r.rows ∧ 256 ≤ r.budget ∧ r.budget ≤ 16384 ∧ 2 ≤ r.stall ∧ r.stall ≤ 60 ∧
  r.inject ≤ 255

/-- The heads whose taken source is TEST (R146). -/
def testOwners (x : Settings) : List Head :=
  [Head.h0, Head.h1, Head.h2, Head.h3].filter (fun h => (x.routes.get h).source == .test)

/-- Every working setting lies in its range (R179 to R181), and at most one head owns TEST (R146). -/
def SettingsOk (s : State) : Prop :=
  let x := s.sru.set
  (x.settle ≤ 255 ∧ x.guardBand ≤ 15 ∧ x.holdLimit ≤ 600 ∧ 1 ≤ x.nearFull ∧ x.nearFull ≤ 64) ∧
  (x.speedLimit ≤ 32767 ∧ 1 ≤ x.accel ∧ x.accel ≤ 4095 ∧ 1 ≤ x.stopRate ∧ x.stopRate ≤ 8191 ∧ x.runout ≤ 255) ∧
  (10000 ≤ x.nominal ∧ x.nominal ≤ 50000 ∧ x.autoSpeed.natAbs ≤ 32767) ∧
  (∀ c ∈ [Claimant.operator, Claimant.presenter, Claimant.auto], 1 ≤ levelOf x c ∧ levelOf x c ≤ 3) ∧
  (∀ l ∈ [x.curveA, x.curveB], l.length = 17 ∧ ∀ n ∈ l, n ≤ 32767) ∧
  (∀ h ∈ [Head.h0, Head.h1, Head.h2, Head.h3], routeOk (x.routes.get h)) ∧ (testOwners x).length ≤ 1

/-- The record numbers of waiting records run up to the produce index. -/
def numbered (produce : Byte) : List Record → Prop
  | [] => True
  | r :: rest => r.num = produce - BitVec.ofNat 8 (rest.length + 1) ∧ numbered produce rest

/-- The event ring (R202): produce never runs more than 32 ahead of the consume copy, and the records that wait bear the
numbers up to produce, in order. -/
def RingOk (s : State) : Prop :=
  (s.sru.produce - s.sru.consume).toNat ≤ ringRecords ∧ numbered s.sru.produce s.sru.records

/-- Every group of the fresh set stands in the latch (R199). -/
def FreshOk (s : State) : Prop := s.sru.fresh &&& ~~~s.sru.latch = 0

/-- The run reset (R71, R189, R190): nothing of one stands in state IDLE, the write of 0 is prepared only when HELM has taken
its share, and requested only when prepared. -/
def RunOk (s : State) : Prop :=
  (s.sru.runState = .idle → s.sru.helmShare = false ∧ s.sru.zeroDue = false) ∧
  (s.sru.zeroDue = true → s.sru.helmShare = false) ∧ (s.sru.request = some .runResetZero → s.sru.zeroDue = true)

/-- The fairness count (R173). -/
def FairnessOk (s : State) : Prop := s.port.fairness ≤ fairnessLimit

/-- The words a processor write may reach: none of the report window but the consume index (R175). -/
def processorMayWrite (wa : Nat) : Prop := windowOf wa ≠ .report ∨ wa = consumeWord

/-- An access at the port is one its owner may make: a processor write stays out of the report window (R175), the SRU writes
the control and report windows, the EHU writes content lanes of the line store, and no other requester writes (R174,
R178). -/
def accessOk (a : PortAccess) : Prop :=
  match a.owner with
  | .processor => a.write = true → processorMayWrite a.wa
  | .part .sru => a.write = true ∧ a.wa < rundownBase
  | .part .ehu => a.write = true → lineBase ≤ a.wa ∧ a.lanes &&& ~~~(contentLanes (slotWordOf a.wa)) = 0
  | .part (.hlt _) => a.write = false
  | .part .rwk => a.write = false

/-- The port and what waits for it (R174, R175, R193, R196). -/
def PortOk (s : State) : Prop :=
  (∀ a ∈ s.port.busy, accessOk a) ∧
  (∀ c ∈ s.ptp.carried, c.acc.write = true → (c.stage = .waiting ∨ c.stage = .onPort) → processorMayWrite c.acc.ha.toNat) ∧
  (s.sru.request = some .initWord → s.rst.initWord < 2048) ∧ (∀ w ∈ s.sru.status, w.next < statusWords)

/-- An attention write is in progress at the port (R199). -/
def attentionInFlight (s : State) : Prop :=
  s.sru.request = some .attention ∧ ∃ a ∈ s.port.busy, a.owner = .part .sru ∧ a.orphan = false

/-- Initialisation has made its first attention write (R193). -/
def reporting (s : State) : Prop := s.rst.phase = .ending ∨ s.rst.phase = .running

/-- The attention word (R198, R199): with no attention write requested, the one in progress carries the latch, and when none
is in progress memory holds it. -/
def AttentionOk (s : State) : Prop :=
  (∀ a ∈ s.port.busy, a.owner = .part .sru → a.orphan = false → s.sru.request = some .attention →
    a.wa = attentionWord ∧ a.lanes = 0b1111 ∧ a.write = true ∧ (s.sru.attnReq = false → a.data = s.sru.latch.setWidth 32)) ∧
  (reporting s → s.sru.request ≠ some .initWord ∧
    (∀ a ∈ s.port.busy, a.write = true → a.wa = attentionWord → attentionInFlight s) ∧
    (s.sru.attnReq = false → ¬attentionInFlight s → readWord s.mem attentionWord = s.sru.latch.setWidth 32))

/-- The blocks stand as a master reset leaves them (R4, R44, R70, R104, R125, R137, R166, R173, R192). -/
def AtReset (t : State) : Prop :=
  t.rwk = State.reset.rwk ∧ t.ehu = State.reset.ehu ∧ t.sce = State.reset.sce ∧ t.hlr = State.reset.hlr ∧
  t.helm = State.reset.helm ∧ t.ftu = State.reset.ftu ∧ t.hlt = State.reset.hlt ∧ t.sru = State.reset.sru ∧
  t.ptp.carried = none ∧ t.ptp.dropped = 0 ∧ t.port.fairness = 0 ∧ t.port.pointer = .rwk

/-- The access is a release write that the EHU has in progress for itself (R38). -/
def releaseInProgress (a : PortAccess) : Prop := a.owner = .part .ehu ∧ a.write = true ∧ a.orphan = false

/-- An access that stands presented still does, and one taken and not withdrawn stands presented again (R177). -/
def standsPresented (s t : State) : Prop :=
  (∀ a, s.ptp.presented = some a → t.ptp.presented = some a) ∧
  (∀ c, s.ptp.presented = none → s.ptp.carried = some c →
    t.ptp.presented = if c.withdrawn = true then none else some c.acc) ∧
  (s.ptp.presented = none → s.ptp.carried = none → t.ptp.presented = none)

/-- A master reset has begun (R177): the blocks stand at reset, memory and the queue of commands stay, READY is low and IRQ#
high, and an access in progress completes without its requester, a release with the bytes its entry had. -/
def masterResetDone (s t : State) : Prop :=
  standsPresented s t ∧ AtReset t ∧ t.mem = s.mem ∧ t.pending = s.pending ∧ t.ptp.handovers = [] ∧ readyHigh t = false ∧ irqLow t = false ∧
  (t.port.busy = none ↔ s.port.busy = none) ∧
  (∀ a b, s.port.busy = some a → t.port.busy = some b →
    b.orphan = true ∧ b.owner = a.owner ∧ b.write = a.write ∧ b.wa = a.wa ∧
    (∀ e, releaseInProgress a → s.ehu.queue.find? (fun x => x.wa == a.wa) = some e →
      b.lanes = e.mask ∧ b.data = e.data) ∧
    (¬releaseInProgress a ∨ (∀ e ∈ s.ehu.queue, e.wa ≠ a.wa) → b.lanes = a.lanes ∧ b.data = a.data))

/-- The blocks stand at reset but for what the reset pin's rise goes on to: the reset control, and the SRU's first request
and the port's first grant (R176, R193). -/
def blocksReset (s t : State) : Prop :=
  t.mem = s.mem ∧ t.pending = s.pending ∧ t.rwk = State.reset.rwk ∧ t.ehu = State.reset.ehu ∧ t.sce = State.reset.sce ∧
  t.hlr = State.reset.hlr ∧ t.helm = State.reset.helm ∧ t.ftu = State.reset.ftu ∧ t.hlt = State.reset.hlt ∧
  sruIs State.reset.sru t ∧ t.ptp.carried = none ∧ t.ptp.dropped = 0 ∧ t.ptp.handovers = [] ∧ standsPresented s t

end Sys2Proof.Machine
end

