-- ==== Sys2Proof/Certificates/Slice0/Obligations.lean ====
section
/-! DEFINITION. The statements for the provers: what each command does and leaves alone, where it completes, and the
invariants that every command keeps. -/

open Sys2Proof Sys2Proof.Machine Sys2Proof.Config

/-! ## The step and the machine as a whole -/

/-- A step takes the command at the front of the queue and carries it out on the state with the queue's rest. On an empty queue
it leaves the state alone, which is the model's choice (assumption 2). -/
def Obligations.StepTakesFrontCommand : Prop :=
  (∀ (c : Instr) (rest : List Instr) (s : State), step (s.withPending (c :: rest)) = exec c (s.withPending rest)) ∧
  (∀ s : State, s.pending = [] → step s = .next s)

/-- No command stops the part: every step of every state answers a next state. This rests on the model's choices for a command
whose event has not come about (assumption 3) and for an empty queue (assumption 2). -/
def Obligations.PartNeverStops : Prop := ∀ s : State, ∃ t, step s = .next t

/-- The state after reset meets every invariant of the statements below. -/
def Obligations.ResetMeetsInvariants : Prop :=
  MemOk State.reset ∧ HelmOk State.reset ∧ HoldOk State.reset ∧ MapOk State.reset ∧ PositionOk State.reset ∧
  MarksOk State.reset ∧ SettingsOk State.reset ∧ RingOk State.reset ∧ FreshOk State.reset ∧ FairnessOk State.reset ∧
  PortOk State.reset ∧ AttentionOk State.reset ∧ ReleaseOk State.reset ∧ RunOk State.reset

/-- The values the rules give a master reset (R4, R44, R70, R94, R104, R121, R122, R125, R137, R144, R166, R173, R174,
R192, R194), as they stand in the state after reset. -/
def Obligations.ResetValues : Prop :=
  let s := State.reset
  (s.rwk.phase = .idle ∧ s.rwk.mapStale = false ∧ s.rwk.rewalk = false ∧ s.rwk.settle = .stopped ∧ s.rwk.discards = 0 ∧
    s.rwk.discarded = 0 ∧ s.rwk.bank.rows = [] ∧ s.rwk.seen = 0 ∧ s.rwk.read = none) ∧
  (s.ehu.queue = [] ∧ s.ehu.onAir = [] ∧ s.ehu.nearFull = false ∧ s.ehu.spills = 0 ∧ s.ehu.expiries = 0) ∧
  (s.sce.pos = 0 ∧ s.sce.speed = 0 ∧ s.sce.active.rows = [] ∧ s.sce.jump = none ∧ s.sce.marks = [] ∧
    s.sce.runoutFlag = false ∧ s.sce.stopReached = none ∧ s.sce.speedLimit = 8192 ∧ s.sce.accel = 64 ∧
    s.sce.stopRate = 256 ∧ s.sce.runout = 20 ∧ s.sce.relinks = 0) ∧
  (∀ l : Link, let x := s.hlr.get l
    x.parser = [] ∧ x.seq = none ∧ x.deflection = 0 ∧ x.link = .absent ∧ x.rateCount = 0 ∧ x.silence = 0 ∧
    x.silenceTimer = none ∧ x.rateTimer = none ∧ x.checkErrors = 0 ∧ x.seqGaps = 0 ∧ x.buttons.length = 8 ∧
    ∀ b ∈ x.buttons, b.pressed = false ∧ b.agree = 0 ∧ b.presses = 0 ∧ b.window = none) ∧
  (∀ c : Claimant, claimState s.helm c = .idle) ∧
  (s.helm.paused = false ∧ s.helm.coast = false ∧ s.helm.cleared = false ∧ s.helm.refused = 0 ∧
    s.helm.lastDeflection = ⟨0, 0⟩ ∧ s.helm.staged = ⟨[], []⟩) ∧
  s.helm.inUse.operator = ⟨true, 3, 16, false, 2, 400, 20,
    [⟨.take, .press, 1⟩, ⟨.release, .press, 1⟩, ⟨.pause, .press, 1⟩, ⟨.mark, .press, 1⟩, ⟨.returnMark, .press, 1⟩,
      ⟨.nextStory, .press, 1⟩, ⟨.prevStory, .press, 1⟩, ⟨.none, .press, 1⟩]⟩ ∧
  s.helm.inUse.presenter = ⟨false, 3, 16, true, 2, 400, 30,
    [⟨.pause, .press, 1⟩, ⟨.mark, .press, 2⟩, ⟨.returnMark, .press, 2⟩, ⟨.nextStory, .press, 1⟩, ⟨.prevStory, .press, 1⟩,
      ⟨.take, .press, 2⟩, ⟨.release, .press, 2⟩, ⟨.none, .press, 1⟩]⟩ ∧
  (s.helm.curveA = s.sru.set.curveA ∧ s.helm.curveB = s.sru.set.curveB ∧
    s.sru.set.curveA = [0, 40, 96, 160, 240, 340, 460, 600, 760, 940, 1140, 1360, 1600, 1860, 2140, 2440, 2760] ∧
    s.sru.set.curveB = [0, 20, 48, 80, 120, 170, 230, 300, 380, 470, 570, 680, 800, 930, 1070, 1220, 1380]) ∧
  (s.ftu.tick = 0 ∧ s.ftu.sync = .substitute ∧ s.ftu.goodCount = 0 ∧ s.ftu.lastPeriod = 0 ∧ s.ftu.glitches = 0 ∧
    s.ftu.frame = 0 ∧ s.ftu.nominal = 20000 ∧ s.ftu.substituteAt = none) ∧
  (∀ h : Head, let x := s.hlt.get h
    x.state = .silent ∧ x.lastAck = none ∧ x.rejected = none ∧ x.prevTop = 0 ∧ x.inject = 0 ∧ x.sending = none ∧
    x.ackParser = [] ∧ (∀ v ∈ x.view, v = ⟨none, false⟩) ∧
    x.route = ⟨if h = .h0 then .live else .off, 12, 3, 4096, 10, false, 0⟩ ∧ s.sru.set.routes.get h = x.route ∧
    s.sru.set.injectWritten.get h = false) ∧
  (s.sru.latch = 0 ∧ s.sru.fresh = 0 ∧ s.sru.attnReq = false ∧ s.sru.produce = 0 ∧ s.sru.consume = 0 ∧
    s.sru.records = [] ∧ s.sru.status = none ∧ s.sru.runState = .idle) ∧
  (let x := s.sru.set;
    x.settle = 40 ∧ x.editMode = .batch ∧ x.guardBand = 2 ∧ x.holdLimit = 30 ∧ x.nearFull = 48 ∧ x.speedLimit = 8192 ∧
    x.accel = 64 ∧ x.stopRate = 256 ∧ x.runout = 20 ∧ x.nominal = 20000 ∧ x.helmMode = .nest ∧ x.levelOperator = 3 ∧
    x.levelPresenter = 2 ∧ x.levelAuto = 1 ∧ x.autoEnable = false ∧ x.autoSpeed = 0 ∧ x.mask = 0xFFF ∧
    x.intEnable = false) ∧
  (s.port.busy = none ∧ s.port.fairness = 0 ∧ s.port.pointer = .rwk ∧ s.ptp.carried = none ∧ s.ptp.dropped = 0) ∧
  s.pending = []

/-! ## Master reset and initialisation -/

/-- A master reset begins at power-on, and on the pin no earlier than F after the falling edge with RESET# still low (R176):
every block takes its reset values, the script memory stays, READY is low and IRQ# high, and the access in progress goes on
for its requester no more (R177). The model's choices: a release in progress keeps the bytes its entry has in the queue, and an
access taken and not withdrawn stands presented again (assumption 11); the operands of the pin commands are times (assumption
10); and with no reset to begin nothing happens (assumption 3). -/
def Obligations.MasterResetBegins : Prop :=
  (∀ s : State, ∃ t, exec .powerOn s = .next t ∧ masterResetDone s t ∧
    t.rst = ⟨.held, false, s.rst.pinLow, none, .power, 0, 0⟩) ∧
  (∀ (s : State) (f lowFor : Nat), s.rst.judging = some f → f ≤ lowFor →
    ∃ t, exec (.masterReset lowFor) s = .next t ∧ masterResetDone s t ∧
      t.rst = ⟨.held, s.rst.supplyGood, s.rst.pinLow, none, .pin, 0, 0⟩) ∧
  (∀ (s : State) (f lowFor : Nat), s.rst.judging = some f → lowFor < f → exec (.masterReset lowFor) s = .next s) ∧
  (∀ (s : State) (lowFor : Nat), s.rst.judging = none → exec (.masterReset lowFor) s = .next s)

/-- The falling edge of RESET# takes F from the straps, and the pulse is judged by it: shorter than 2·F with no master reset
begun it is ignored, at 2·F or longer it has reset the part (R176). That the commands carry the time RESET# has been low is
the model's choice (assumption 10). -/
def Obligations.ResetPinJudged : Prop :=
  (∀ (s : State) (dgs : BitVec 2), s.rst.pinLow = false → s.rst.phase ≠ .held →
    ∃ t, exec (.resetPinFall dgs) s = .next t ∧ onlyChanges [.rst] s t ∧
      t.rst = { s.rst with pinLow := true, judging := [0, 2, 32, 1000][dgs.toNat]? }) ∧
  (∀ (s : State) (dgs : BitVec 2), s.rst.pinLow = false → s.rst.phase = .held →
    ∃ t, exec (.resetPinFall dgs) s = .next t ∧ onlyChanges [.rst] s t ∧
      t.rst = { s.rst with pinLow := true, judging := none }) ∧
  (∀ (s : State) (f lowFor : Nat), s.rst.pinLow = true → s.rst.phase ≠ .held → s.rst.judging = some f → lowFor < 2 * f →
    ∃ t, exec (.resetPinRise lowFor) s = .next t ∧ onlyChanges [.rst] s t ∧
      t.rst = { s.rst with pinLow := false, judging := none }) ∧
  (∀ (s : State) (f lowFor : Nat), s.rst.pinLow = true → s.rst.judging = some f → 2 * f ≤ lowFor →
    ∃ t, exec (.resetPinRise lowFor) s = .next t ∧ blocksReset s t ∧
      t.rst = ⟨if s.rst.supplyGood then .windows else .held, s.rst.supplyGood, false, none, .pin, 0, 0⟩)

/-- Initialisation begins when the supply is good and RESET# is high, with the tick count at 0, and waits otherwise (R127, R176,
R193). A flags word read loads the guard bit of its entry and no other (R31), and one that a master reset left at the port loads
nothing (R172, R177). The walk starts when the last window word has been written and the last flags word read, RESET being
raised with the cause recorded, and not before (R22, R193). The end after the attention write starts the substitute timer and
the rate windows from that moment, and the access presented then is taken (R99, R137, R177, R193). That the end carries its
time, what stands presented until then, and that a walk given too early does not start, are the model's choices (assumptions 6,
12 and 3). -/
def Obligations.InitialisationSteps : Prop :=
  (∀ s : State, s.rst.phase = .held → s.rst.pinLow = false →
    ∃ t, exec .powerGood s = .next t ∧ onlyChanges [.rst, .ftu] s t ∧
      t.rst = { s.rst with supplyGood := true, phase := .windows, initWord := 0, guardNext := 0 } ∧
      t.ftu = { s.ftu with micros := 0, tickAt := 1000, tick := 0 }) ∧
  (∀ s : State, s.rst.phase = .held → s.rst.pinLow = true →
    ∃ t, exec .powerGood s = .next t ∧ onlyChanges [.rst] s t ∧ t.rst = { s.rst with supplyGood := true }) ∧
  (∀ s : State, s.rst.phase = .held → s.rst.judging = none → s.rst.supplyGood = true →
    ∃ t, exec .initialisation s = .next t ∧ onlyChanges [.rst, .ftu] s t ∧
      t.rst = { s.rst with pinLow := false, phase := .windows, initWord := 0, guardNext := 0 } ∧
      t.ftu = { s.ftu with micros := 0, tickAt := 1000, tick := 0 }) ∧
  (∀ s : State, s.rst.phase = .held → s.rst.judging = none → s.rst.supplyGood = false →
    ∃ t, exec .initialisation s = .next t ∧ onlyChanges [.rst] s t ∧ t.rst = { s.rst with pinLow := false }) ∧
  (∀ (s : State) (a : PortAccess), s.port.busy = some a → a.owner = .part .ehu → a.write = false → a.orphan = false →
    ∃ t, exec .guardReadDone s = .next t ∧ onlyChanges [.ehu, .rst, .port] s t ∧
      t.ehu = { s.ehu with guardSet := t.ehu.guardSet } ∧ t.rst = { s.rst with guardNext := s.rst.guardNext + 1 } ∧
      ∀ i, i < 256 → t.ehu.guardSet.getLsbD i =
        if i = s.rst.guardNext then (readWord s.mem a.wa).getLsbD 1 else s.ehu.guardSet.getLsbD i) ∧
  (∀ (s : State) (a : PortAccess), s.port.busy = some a → a.owner = .part .ehu → a.write = false → a.orphan = true →
    ∃ t, exec .guardReadDone s = .next t ∧ onlyChanges [.port] s t ∧
      t = arbitrate (s.withPort { s.port with busy := none })) ∧
  (∀ s : State, s.rst.phase = .windows → s.rst.initWord = 2048 → s.rst.guardNext = 256 →
    ∃ t, exec .initWalkStart s = .next t ∧ onlyRaises [.rst, .rwk] [.reset s.rst.cause] s t ∧
      t.rst = { s.rst with phase := .firstRecord } ∧
      t.rwk = { s.rwk with
        phase := .walking, rewalk := false, seen := 0, bank := ⟨[], 0, 0, s.rwk.discards⟩, read := some (.entryWord 0) }) ∧
  (∀ s : State, s.rst.initWord < 2048 ∨ s.rst.guardNext < 256 → exec .initWalkStart s = .next s) ∧
  (∀ (s : State) (now : Nat), s.rst.phase = .ending →
    ∃ t, exec (.initEnd now) s = .next t ∧ t.rst = { s.rst with phase := .running } ∧
      t.ftu = { s.ftu with
        micros := max s.ftu.micros now, lastBoundary := max s.ftu.micros now,
        substituteAt := some (max s.ftu.micros now + s.ftu.nominal) } ∧
      (∀ l : Link, t.hlr.get l = { s.hlr.get l with rateTimer := some 100 }) ∧
      (s.ptp.presented = none → onlyChanges [.rst, .ftu, .hlr] s t) ∧
      (∀ a : Access, s.ptp.carried = none → s.ptp.handovers = [] → s.ptp.presented = some a →
        t.ptp.presented = none ∧ ∃ c, t.ptp.carried = some c ∧ c.acc = a ∧ c.withdrawn = false) ∧
      onlyChanges [.rst, .ftu, .hlr, .ptp, .rwk, .ehu, .sru] s t)

/-- A write of the SRU is performed: memory takes it and the SRU goes on to what comes next, a record word, the record after it,
the end of a run reset, or the next status word (R190, R193, R196). It chooses its next write in the order of R203: records,
the attention write, the end of a run reset, the status words; in initialisation the windows, the record and the attention word
(R193). That an attention write that waits gives way to a record accepted since is an inference from the spec (assumption
14). -/
def Obligations.SruWritePerformed : Prop :=
  (∀ (s : State) (a : PortAccess) (k : SruAccess), MemOk s → s.port.busy = some a → a.owner = .part .sru →
    a.write = true → a.orphan = false → s.sru.request = some k →
    ∃ t, exec .sruWriteDone s = .next t ∧ onlyChanges [.mem, .rst, .sru, .port] s t ∧ wordWritten a.wa a.lanes a.data s t ∧
      (k = .record → s.sru.recordWord < 4 → sruIs { s.sru with recordWord := s.sru.recordWord + 1 } t) ∧
      (k = .record → 4 ≤ s.sru.recordWord → sruIs { s.sru with recordWord := 0, records := s.sru.records.tail } t) ∧
      (k = .runResetZero → sruIs { s.sru with zeroDue := false, runState := .idle } t) ∧
      (∀ w, k = .status → s.sru.status = some w →
        sruIs { s.sru with status := if w.next < 31 then some { w with next := w.next + 1 } else none } t) ∧
      (k = .initWord ∨ k = .attention → sruIs s.sru t) ∧
      (s.rst.phase = .windows → k = .initWord → t.rst = { s.rst with initWord := s.rst.initWord + 1 }) ∧
      (s.rst.phase = .firstRecord → k = .record → 4 ≤ s.sru.recordWord → t.rst = { s.rst with phase := .firstAttention }) ∧
      (s.rst.phase = .firstAttention → k = .attention → t.rst = { s.rst with phase := .ending }) ∧
      (s.rst.phase = .ending ∨ s.rst.phase = .running → t.rst = s.rst)) ∧
  (∀ (s : State) (a : PortAccess), MemOk s → s.port.busy = some a → a.owner = .part .sru → a.write = true →
    a.orphan = true →
    ∃ t, exec .sruWriteDone s = .next t ∧ onlyChanges [.mem, .port] s t ∧ wordWritten a.wa a.lanes a.data s t) ∧
  (∀ s : State, let x := s.sru
    (reporting s →
      (x.records ≠ [] → sruNext s = some .record) ∧
      (x.records = [] → x.attnReq = true → sruNext s = some .attention) ∧
      (x.records = [] → x.attnReq = false → x.zeroDue = true → sruNext s = some .runResetZero) ∧
      (x.records = [] → x.attnReq = false → x.zeroDue = false → x.status ≠ none → sruNext s = some .status) ∧
      (x.records = [] → x.attnReq = false → x.zeroDue = false → x.status = none → sruNext s = none)) ∧
    (s.rst.phase = .held → sruNext s = none) ∧
    (s.rst.phase = .windows → sruNext s = if s.rst.initWord < 2048 then some .initWord else none) ∧
    (s.rst.phase = .firstRecord → sruNext s = if x.records = [] then none else some .record) ∧
    (s.rst.phase = .firstAttention → sruNext s = some .attention) ∧
    (holdsPort s .sru = false → x.request = none ∨ x.request = some .attention →
      requestSru s = s.withSru { x with request := sruNext s }) ∧
    (holdsPort s .sru = true ∨ (x.request ≠ none ∧ x.request ≠ some .attention) → requestSru s = s))

/-! ## Time and frame boundaries -/

/-- A millisecond tick: the tick count rises by 1, and every timer that runs on the tick takes it (R7, R96, R99, R100, R127).
That the microsecond count comes at least to the tick's own moment, 1,000 after the tick before, and that an expiry is a command
of its own, are the model's choices (assumptions 6 and 8). -/
def Obligations.MsTickCounts : Prop :=
  ∀ s : State, s.rst.phase ≠ .held →
    ∃ t, exec .msTick s = .next t ∧ onlyChanges [.ftu, .rwk, .hlr] s t ∧
      t.ftu = { s.ftu with
        tick := s.ftu.tick + 1, micros := max s.ftu.micros s.ftu.tickAt, tickAt := s.ftu.tickAt + 1000 } ∧
      t.rwk = { s.rwk with settle := t.rwk.settle } ∧
      (∀ n, s.rwk.settle = .running n → t.rwk.settle = .running (n - 1)) ∧
      ((∀ n, s.rwk.settle ≠ .running n) → t.rwk.settle = s.rwk.settle) ∧
      ∀ l : Link, let x := s.hlr.get l; let y := t.hlr.get l
        y = { x with
          buttons := x.buttons.map (fun b => { b with window := b.window.map (· - 1) })
          rateTimer := y.rateTimer, rateDue := y.rateDue, silenceTimer := y.silenceTimer, silenceDue := y.silenceDue } ∧
        (∀ n, x.rateTimer = some (n + 2) → y.rateTimer = some (n + 1) ∧ y.rateDue = x.rateDue) ∧
        (x.rateTimer = some 1 → y.rateTimer = some 100 ∧ y.rateDue = true) ∧
        (x.rateTimer = none → y.rateTimer = none ∧ y.rateDue = x.rateDue) ∧
        (∀ n, x.silenceTimer = some (n + 2) → y.silenceTimer = some (n + 1) ∧ y.silenceDue = x.silenceDue) ∧
        (x.silenceTimer = some 1 → y.silenceTimer = some 50 ∧ y.silenceDue = true) ∧
        (x.silenceTimer = none → y.silenceTimer = none ∧ y.silenceDue = x.silenceDue)

/-- The substitute timer and, in LOCKED, the overdue deadline make a boundary at their moment, put the pending nominal period
into use, and start the substitute timer from it; a pulse taken first at that moment has stopped the timer or put the deadline
off, and the command then changes nothing (R129, R130, R132, R134, R135). The absolute microsecond counts, and that a moment has
come when it lies no later than the next tick, are the model's way of keeping time (assumption 6); that a command given before
its moment changes nothing is the model's choice (assumption 3), and the N in use that SYNC_STATE carries is an inference from
the spec (assumption 19). -/
def Obligations.TimedBoundaries : Prop :=
  (∀ (s : State) (at_ : Nat), s.ftu.substituteAt = some at_ → at_ ≤ max s.ftu.micros s.ftu.tickAt →
    ∃ t, exec .substituteExpiry s = .next t ∧ onlyChanges [.ftu] s t ∧
      t.ftu = { s.ftu with
        frame := s.ftu.frame + 1, lastBoundary := at_, nominal := s.sru.set.nominal, micros := max s.ftu.micros at_
        goodCount := if s.ftu.sync = .acquiring ∧ s.sru.set.nominal ≠ s.ftu.nominal then 0 else s.ftu.goodCount
        substituteAt := some (at_ + s.sru.set.nominal), due := allDue }) ∧
  (∀ s : State, (∀ at_, s.ftu.substituteAt = some at_ → max s.ftu.micros s.ftu.tickAt < at_) →
    exec .substituteExpiry s = .next s) ∧
  (∀ s : State, let deadline := s.ftu.lastBoundary + s.ftu.nominal + s.ftu.nominal / 8
    (s.ftu.sync = .locked → deadline ≤ max s.ftu.micros s.ftu.tickAt →
      ∃ t, exec .overdueDeadline s = .next t ∧
        onlyRaises [.ftu] [.syncState .substitute s.sru.set.nominal s.ftu.lastPeriod] s t ∧
        t.ftu = { s.ftu with
          sync := .substitute, goodCount := 0, frame := s.ftu.frame + 1, lastBoundary := deadline
          nominal := s.sru.set.nominal, micros := max s.ftu.micros deadline
          substituteAt := some (deadline + s.sru.set.nominal), due := allDue }) ∧
    (s.ftu.sync ≠ .locked ∨ max s.ftu.micros s.ftu.tickAt < deadline → exec .overdueDeadline s = .next s))

/-- A pulse in SUBSTITUTE and in ACQUIRING: the first begins to acquire, the next are measured, and the one that brings the
good-period count to 8 locks, with a boundary unless the last lies less than half a period back (R128, R130 to R132). In
LOCKED a pulse makes a boundary when it comes no earlier than N less an eighth after the last one, and is a glitch otherwise
(R133). The absolute microsecond counts are the model's way of keeping time (assumption 6), and the N in use that SYNC_STATE
carries is an inference from the spec (assumption 19). -/
def Obligations.FsyncPulses : Prop :=
  (∀ (s : State) (now : Nat), s.rst.phase = .running →
    let m := max s.ftu.micros now
    let period := min 65535 (m - s.ftu.prevPulse)
    let n := s.ftu.nominal
    let good := n - n / 8 ≤ period ∧ period ≤ n + n / 8
    (s.ftu.sync = .substitute →
      ∃ t, exec (.fsyncPulse now) s = .next t ∧ onlyChanges [.ftu] s t ∧
        t.ftu = { s.ftu with micros := m, sync := .acquiring, goodCount := 0, prevPulse := m }) ∧
    (s.ftu.sync = .acquiring → ¬good →
      ∃ t, exec (.fsyncPulse now) s = .next t ∧ onlyChanges [.ftu] s t ∧
        t.ftu = { s.ftu with micros := m, lastPeriod := period, prevPulse := m, goodCount := 0 }) ∧
    (s.ftu.sync = .acquiring → good → s.ftu.goodCount < 7 →
      ∃ t, exec (.fsyncPulse now) s = .next t ∧ onlyChanges [.ftu] s t ∧
        t.ftu = { s.ftu with micros := m, lastPeriod := period, prevPulse := m, goodCount := s.ftu.goodCount + 1 }) ∧
    (s.ftu.sync = .acquiring → good → s.ftu.goodCount = 7 →
      ∃ t, exec (.fsyncPulse now) s = .next t ∧ onlyRaises [.ftu] [.syncState .locked t.ftu.nominal period] s t ∧
        t.ftu = { s.ftu with
          micros := m, sync := .locked, goodCount := 8, substituteAt := none, lastBoundary := m, lastPeriod := period
          prevPulse := m, frame := t.ftu.frame, nominal := t.ftu.nominal, due := t.ftu.due } ∧
        (n ≤ 2 * min 65535 (m - s.ftu.lastBoundary) →
          t.ftu.frame = s.ftu.frame + 1 ∧ t.ftu.nominal = s.sru.set.nominal ∧ t.ftu.due = allDue) ∧
        (2 * min 65535 (m - s.ftu.lastBoundary) < n →
          t.ftu.frame = s.ftu.frame ∧ t.ftu.nominal = n ∧ t.ftu.due = s.ftu.due))) ∧
  (∀ (s : State) (now : Nat), s.rst.phase = .running → s.ftu.sync = .locked →
    let m := max s.ftu.micros now
    let since := min 65535 (m - s.ftu.lastBoundary)
    (s.ftu.nominal - s.ftu.nominal / 8 ≤ since →
      ∃ t, exec (.fsyncPulse now) s = .next t ∧ onlyChanges [.ftu] s t ∧
        t.ftu = { s.ftu with
          micros := m, frame := s.ftu.frame + 1, lastBoundary := m, lastPeriod := since
          nominal := s.sru.set.nominal, due := allDue }) ∧
    (since < s.ftu.nominal - s.ftu.nominal / 8 →
      ∃ t, exec (.fsyncPulse now) s = .next t ∧ onlyChanges [.ftu] s t ∧
        t.ftu = { s.ftu with micros := m, glitches := s.ftu.glitches + 1 }))

/-! ## The scroll engine, marks and jumps -/

/-- The ramp: a step that accelerates uses rate A and any other rate B, and `v` moves toward `t` by the smaller of the rate
and the distance (R57, R58). -/
def Obligations.RampRule : Prop :=
  ∀ (A B : Nat) (v t : Int),
    let accel := v = 0 ∨ (0 < v * t ∧ v.natAbs < t.natAbs)
    (∀ rate : Int, (accel → rate = A) → (¬accel → rate = B) →
      (v < t → ramp A B v t = v + min rate (t - v)) ∧ (t < v → ramp A B v t = v - min rate (v - t)) ∧
      (v = t → ramp A B v t = v))

/-- A step with no map offered and no jump asked for: where neither a STOP row nor an end stands in the way, P moves by the
speed that limit and ramp give; on a map of 0 rows P and v are 0 and the request and the flags are clear (R51, R53, R54, R56
to R59, R61, R63, R123). That the step waits for the other shares of its boundary, and that HELM limits its target with the V of
the step before, are inferences from the spec (assumptions 7 and 26). -/
def Obligations.FrameStepMoves : Prop :=
  (∀ s : State, plainStep s → 0 ≤ (s.sce.pos : Int) + nextSpeed s → (s.sce.pos : Int) + nextSpeed s ≤ pMax s.sce.active.rows →
    (∀ i, ¬crosses s i s.sce.pos (s.sce.pos + nextSpeed s)) →
    ∃ t, exec .frameStep s = .next t ∧ onlyRaises [.sce, .ftu, .helm] (runoutRise s t) s t ∧ stepEnds s t ∧ stopKept s t ∧
      (t.sce.pos : Int) = s.sce.pos + nextSpeed s ∧ t.sce.speed = nextSpeed s ∧ t.sce.marks = s.sce.marks) ∧
  (∀ s : State, stepReady s → s.rwk.phase ≠ .offered → s.sce.active.rows = [] →
    ∃ t, exec .frameStep s = .next t ∧ onlyChanges [.sce, .ftu, .helm] s t ∧ helmPassed s t ∧
      t.sce = { s.sce with
        pos := 0, speed := 0, jump := none, stopReached := none, runoutFlag := false
        speedLimit := s.sru.set.speedLimit, accel := s.sru.set.accel, stopRate := s.sru.set.stopRate
        runout := s.sru.set.runout } ∧
      t.ftu = { s.ftu with due := { s.ftu.due with sce := false } })

/-- What stops a step: the lowest STOP row crossed going forward, which sets the paused flag but for a PAUSE CLEAR taken together
with the step, and the two ends of the map, each with its event once (R60, R62, R118). That the step waits for the other shares of
its boundary, that HELM limits its target with the V of the step before, and when a CLEAR comes together with a step, are
inferences from the spec (assumptions 7, 26 and 35). -/
def Obligations.FrameStepLimits : Prop :=
  (∀ (s : State) (i : Nat) (r : Row), plainStep s → s.sce.active.rows[i]? = some r →
    crosses s i s.sce.pos (s.sce.pos + nextSpeed s) → (∀ j, j < i → ¬crosses s j s.sce.pos (s.sce.pos + nextSpeed s)) →
    ∃ t, exec .frameStep s = .next t ∧
      onlyRaises [.sce, .ftu, .helm] (.stopReached i r.slot r.story :: runoutRise s t) s t ∧ stepEnds s t ∧
      t.sce.pos = 4096 * i ∧ t.sce.speed = 0 ∧ t.sce.stopReached = some r.slot ∧ t.sce.marks = s.sce.marks ∧
      t.helm = { s.helm with paused := s.helm.paused || !s.helm.cleared, cleared := false }) ∧
  (∀ s : State, plainStep s → (s.sce.pos : Int) + nextSpeed s < 0 →
    ∃ t, exec .frameStep s = .next t ∧
      onlyRaises [.sce, .ftu, .helm] ((if s.sce.pos = 0 then [] else [.topStop (slotAt s.sce.active.rows 0) (nextSpeed s)]) ++
        runoutRise s t) s t ∧
      stepEnds s t ∧ stopKept s t ∧ t.sce.pos = 0 ∧ t.sce.speed = 0 ∧ t.sce.marks = s.sce.marks) ∧
  (∀ s : State, plainStep s → (pMax s.sce.active.rows : Int) < s.sce.pos + nextSpeed s →
    (∀ i, ¬crosses s i s.sce.pos (s.sce.pos + nextSpeed s)) →
    ∃ t, exec .frameStep s = .next t ∧
      onlyRaises [.sce, .ftu, .helm] ((if s.sce.pos = pMax s.sce.active.rows then []
        else [.endStop (slotAt s.sce.active.rows (rowCount s - 1)) (nextSpeed s)]) ++ runoutRise s t) s t ∧
      stepEnds s t ∧ stopKept s t ∧ t.sce.pos = pMax s.sce.active.rows ∧ t.sce.speed = 0 ∧ t.sce.marks = s.sce.marks)

/-- A jump resolved in the step: P takes the target, cut to Pmax, v becomes 0 and there is no motion; RETURN pops the newest
mark, and with no mark the step goes on as if nothing had been asked for (R55, R80, R83). That the step waits for the other
shares of its boundary is the model's choice (assumption 7). -/
def Obligations.JumpResolved : Prop :=
  (∀ (s : State) (j : Jump) (target : Nat), stepReady s → s.rwk.phase ≠ .offered → s.sce.active.rows ≠ [] →
    s.sce.jump = some j →
    (j = .nextStory ∧ target = nextStoryTarget s.sce.active.rows (s.sce.pos / 4096) ∨
      j = .prevStory ∧ target = prevStoryTarget s.sce.active.rows (s.sce.pos / 4096)) →
    ∃ t, exec .frameStep s = .next t ∧ onlyRaises [.sce, .ftu, .helm] (runoutRise s t) s t ∧ stepEnds s t ∧ stopKept s t ∧
      t.sce.pos = min target (pMax s.sce.active.rows) ∧ t.sce.speed = 0 ∧ t.sce.marks = s.sce.marks) ∧
  (∀ (s : State) (older : List Mark) (m : Mark) (k : Nat) (r : Row), stepReady s → s.rwk.phase ≠ .offered →
    s.sce.jump = some .returnMark → s.sce.marks = older ++ [m] →
    (s.sce.active.rows.map (·.slot)).Nodup → s.sce.active.rows[k]? = some r → r.slot = m.slot →
    ∃ t, exec .frameStep s = .next t ∧ onlyRaises [.sce, .ftu, .helm] (runoutRise s t) s t ∧ stepEnds s t ∧ stopKept s t ∧
      t.sce.pos = min (4096 * k + m.fraction) (pMax s.sce.active.rows) ∧ t.sce.speed = 0 ∧ t.sce.marks = older) ∧
  (∀ s : State, s.rwk.phase ≠ .offered → s.sce.active.rows ≠ [] → s.sce.jump = some .returnMark → s.sce.marks = [] →
    s.ftu.due.sce = true → s.ftu.due.helm = false → s.ftu.due.ehu = false →
    exec .frameStep s = exec .frameStep (s.withSce { s.sce with jump := none }))

/-- NEXT_STORY targets the top of the story after the one being read, or the top of the last row when there is none; a later
forward step from the top of a row does not stop at that row (R81). PREV_STORY targets the top of the current story from a row
after its first, and from its first row the story before, or 0 when there is none (R79, R82). -/
def Obligations.StoryTargets : Prop :=
  (∀ (rows : List Row) (i n : Nat), i < n → firstAt rows n = true → (∀ m, i < m → m < n → firstAt rows m = false) →
    nextStoryTarget rows i = 4096 * n) ∧
  (∀ (rows : List Row) (i : Nat), (∀ n, i < n → firstAt rows n = false) → nextStoryTarget rows i = pMax rows) ∧
  (∀ (rows : List Row) (n : Nat) (v : Int) (i : Nat), stopRow rows (4096 * n) (4096 * n + v) = some i → n < i) ∧
  (∀ (rows : List Row) (i c : Nat), c ≤ i → firstAt rows c = true → (∀ m, c < m → m ≤ i → firstAt rows m = false) →
    (c < i → prevStoryTarget rows i = 4096 * c) ∧
    (∀ p, c = i → p < c → firstAt rows p = true → (∀ m, p < m → m < c → firstAt rows m = false) →
      prevStoryTarget rows i = 4096 * p) ∧
    (c = i → (∀ p, p < c → firstAt rows p = false) → prevStoryTarget rows i = 0))

/-- The anchor of an installation: its own slot, else the next old row that survives, else the nearest before it, else the
top; with no old row there is no anchor (R64 to R67). -/
def Obligations.AnchorRule : Prop :=
  ∀ (old new : List Row) (pos : Nat),
    (old = [] → resolveAnchor old new pos = (0, [])) ∧
    ∀ a : Row, old[pos / 4096]? = some a →
      (∀ j, firstIndex new a.slot j → resolveAnchor old new pos = (4096 * j + pos % 4096, [])) ∧
      (∀ (k : Nat) (r : Row) (j : Nat), absent new a.slot → pos / 4096 < k → old[k]? = some r → firstIndex new r.slot j →
        (∀ (m : Nat) (q : Row), pos / 4096 < m → m < k → old[m]? = some q → absent new q.slot) →
        resolveAnchor old new pos = (4096 * j, [.anchorMoved a.slot r.slot j])) ∧
      (∀ (k : Nat) (r : Row) (j : Nat), absent new a.slot → k < pos / 4096 → old[k]? = some r → firstIndex new r.slot j →
        (∀ (m : Nat) (q : Row), k < m → old[m]? = some q → absent new q.slot) →
        resolveAnchor old new pos = (4096 * j, [.anchorMoved a.slot r.slot j])) ∧
      ((∀ (m : Nat) (q : Row), old[m]? = some q → absent new q.slot) →
        resolveAnchor old new pos = (0, [.anchorLost a.slot (pos / 4096)]))

/-- An offered map is installed by the step: it becomes active and the bank that was active goes back to the walker, the
position is re-anchored, marks whose slot is gone are removed with MARK_LOST, and the on-air list is recomputed (R19, R20,
R30, R64, R68, R69, R84); on a map that has rows the step then goes on from there as the step of the installed map does (R53).
That the step waits for the other shares of its boundary, and that HELM limits its target with the V of the step before, are
inferences from the spec (assumptions 7 and 26). -/
def Obligations.InstallationTaken : Prop :=
  ∀ s : State, stepReady s → s.rwk.phase = .offered →
    let new := s.rwk.bank
    let anchor := resolveAnchor s.sce.active.rows new.rows s.sce.pos
    let inMap (m : Mark) : Bool := (new.rows.map (·.slot)).contains m.slot
    let events := anchor.2 ++ (s.sce.marks.filter (fun m => !inMap m)).map (fun m => Event.markLost m.slot m.owner m.frame) ++
      [.relinkDone new.rows.length new.stories new.faults new.discards]
    ∃ t, exec .frameStep s = .next t ∧ t.sce.active = new ∧ t.sce.relinks = s.sce.relinks + 1 ∧
      t.ftu = { s.ftu with due := { s.ftu.due with sce := false } } ∧
      t.ehu = s.ehu.recompute (onAirList (liveRoutes s.hlt) s.sru.set.guardBand new.rows
        (min anchor.1 (pMax new.rows) / 4096)) ∧
      (s.rwk.mapStale = true ∧ s.rwk.settle = .elapsed → t.rwk = { s.rwk with
        phase := .walking, rewalk := false, seen := 0, bank := ⟨[], 0, 0, s.rwk.discards⟩, read := some (.entryWord 0) }) ∧
      (¬(s.rwk.mapStale = true ∧ s.rwk.settle = .elapsed) →
        t.rwk = { s.rwk with phase := .idle, bank := s.sce.active }) ∧
      (∃ es, onlyRaises [.sce, .ftu, .rwk, .ehu, .helm] (events ++ es) s t) ∧
      (new.rows = [] → onlyRaises [.sce, .ftu, .rwk, .ehu, .helm] events s t ∧ helmPassed s t ∧ t.sce.pos = 0 ∧ t.sce.speed = 0 ∧
        t.sce.jump = none ∧ t.sce.stopReached = none ∧ t.sce.runoutFlag = false) ∧
      (s.sce.jump = none → t.sce.marks = s.sce.marks.filter inMap) ∧
      (new.rows ≠ [] →
        let pos := min anchor.1 (pMax new.rows)
        let installed := (s.withRwk { s.rwk with phase := .idle }).withSce { s.sce with
          active := new, pos := pos, marks := s.sce.marks.filter inMap, relinks := s.sce.relinks + 1
          stopReached := s.sce.stopReached.filter (fun slot => slotAt new.rows (pos / 4096) == slot && pos % 4096 == 0) }
        ∃ u es, exec .frameStep installed = .next u ∧ onlyRaises [.sce, .ftu, .helm] es installed u ∧
          onlyRaises [.sce, .ftu, .rwk, .ehu, .helm] (events ++ es) s t ∧ t.sce = u.sce ∧ t.helm = u.helm)

/-- A MARK fired on an ACTIVE link is set at the read row: a mark on the same slot goes without an event, then the oldest of 8
with MARK_DROPPED; taken before the step of a boundary it carries the number of the boundary before (R75, R76). One fired on a
link that was not ACTIVE, or taken while L is 0, is ignored (R74). When a MARK comes before the step is an inference from the
spec (assumption 7). -/
def Obligations.MarkSet : Prop :=
  (∀ (s : State) (l : Link) (q : Qualifier) (rest : List Fired), (s.hlr.get l).fired = ⟨.mark, q, true⟩ :: rest →
    s.sce.active.rows ≠ [] →
    let slot := slotAt s.sce.active.rows (s.sce.pos / 4096)
    let kept := s.sce.marks.filter (fun m => m.slot != slot)
    let new : Mark := ⟨slot, s.sce.pos % 4096, l, if s.ftu.due.sce then s.ftu.frame - 1 else s.ftu.frame⟩
    ∃ t, exec (.mark l) s = .next t ∧ firedTaken s l rest t ∧
      (kept.length < 8 → onlyChanges [.hlr, .sce] s t ∧ t.sce = { s.sce with marks := kept ++ [new] }) ∧
      (∀ oldest others, kept = oldest :: others → 8 ≤ kept.length →
        onlyRaises [.hlr, .sce] [.markDropped oldest.slot oldest.owner oldest.frame] s t ∧
        t.sce = { s.sce with marks := others ++ [new] })) ∧
  (∀ (s : State) (l : Link) (f : Fired) (rest : List Fired), (s.hlr.get l).fired = f :: rest → f.action = .mark →
    f.linkActive = false ∨ s.sce.active.rows = [] →
    ∃ t, exec (.mark l) s = .next t ∧ onlyChanges [.hlr] s t ∧ firedTaken s l rest t)

/-- After every command P lies between 0 and Pmax, the speed within the speed limit in effect, and both are 0 on a map of 0 rows
(R49, R50, R56); and the mark list keeps at most 8 marks, no two on one slot, each on a slot of the active map (R73). -/
def Obligations.PositionAndMarksInvariant : Prop :=
  (∀ (c : Instr) (s t : State), PositionOk s → exec c s = .next t → PositionOk t) ∧
  (∀ (c : Instr) (s t : State), PositionOk s → MarksOk s → exec c s = .next t → MarksOk t)

/-- Short of a master reset, P, v and the active map are changed by the frame step and the run reset and by nothing else
(R49, R50), and the frame counter only where a boundary is made, by 1, each block then having the boundary to take (R135). -/
def Obligations.PositionAndFrameWriters : Prop :=
  (∀ (c : Instr) (s t : State), ¬mayReset c → c ≠ .frameStep → (∀ late, c ≠ .runReset late) → exec c s = .next t →
    t.sce.pos = s.sce.pos ∧ t.sce.speed = s.sce.speed ∧ t.sce.active = s.sce.active) ∧
  (∀ (c : Instr) (s t : State), ¬mayReset c → exec c s = .next t →
    t.ftu.frame = s.ftu.frame ∨
      (t.ftu.frame = s.ftu.frame + 1 ∧ t.ftu.due = allDue ∧
        (c = .substituteExpiry ∨ c = .overdueDeadline ∨ ∃ now, c = .fsyncPulse now)))

/-! ## The rundown walker -/

/-- The tests a walk makes on a slot value, in their order, short of the slot's own header (R12): the chain ends normally, or
with a fault that is counted and reported, and the walk goes on with the next entry, or ends after entry 255 (R15); else the
slot's header is read. -/
def Obligations.ChainTests : Prop :=
  ∀ (x : Walker) (settle i story slot : Nat) (placed : Bool),
    let next (y : Walker) : Walker := if i < 255 then { y with read := some (.entryWord (i + 1)) } else y.walkEnd settle
    let faulty : Walker := next { x with bank := { x.bank with faults := x.bank.faults + 1 } }
    (slot = 0xFFFF → x.follow settle i story slot placed = (next x, [])) ∧
    (65024 ≤ slot → slot < 0xFFFF → x.follow settle i story slot placed = (faulty, [.linkFault story slot .badIndex])) ∧
    (slot < 65024 → x.seen.getLsbD slot = true →
      x.follow settle i story slot placed = (faulty, [.linkFault story slot .revisit])) ∧
    (slot < 65024 → x.seen.getLsbD slot = false →
      x.follow settle i story slot placed = ({ x with read := some (.slotWord i story slot placed) }, []))

/-- A walk read completes: entries are passed over or followed, a story already placed is reported, a slot of another story ends
its chain, and a slot that passes is marked seen and, unless HIDDEN, placed as the next row; a full bank ends the walk (R10 to
R14), its kind read from the kind byte as R2 gives it. After entry 255 the walk ends (R15). A read that a reset abandoned at the
port gives nothing (R21, R172). That an entry with SKIP set raises no DUP_STORY is the model's choice (assumption 33). -/
def Obligations.WalkReadTaken : Prop :=
  (∀ (s : State) (a : PortAccess) (r : WalkRead), s.port.busy = some a → a.owner = .part .rwk → a.write = false →
    a.orphan = false → s.rwk.read = some r →
    let w := readWord s.mem a.wa
    let x := s.rwk
    let settle := s.sru.set.settle
    let next (i : Nat) (y : Walker) : Walker :=
      if i < 255 then { y with read := some (.entryWord (i + 1)) } else y.walkEnd settle
    ∃ t, exec .walkReadDone s = .next t ∧
      (∀ i, r = .entryWord i → loHalf w = 0 → onlyChanges [.rwk, .port] s t ∧ t.rwk = next i x) ∧
      (∀ i, r = .entryWord i → loHalf w ≠ 0 →
        onlyChanges [.rwk, .port] s t ∧ t.rwk = { x with read := some (.entryFlags i (loHalf w) (hiHalf w)) }) ∧
      (∀ i story slot, r = .entryFlags i story slot → w.getLsbD 0 = true →
        onlyChanges [.rwk, .port] s t ∧ t.rwk = next i x) ∧
      (∀ i story slot, r = .entryFlags i story slot → w.getLsbD 0 = false → (∃ q ∈ x.bank.rows, q.story = story) →
        onlyRaises [.rwk, .port] [.dupStory story i] s t ∧ t.rwk = next i x) ∧
      (∀ i story slot, r = .entryFlags i story slot → w.getLsbD 0 = false → (∀ q ∈ x.bank.rows, q.story ≠ story) →
        onlyRaises [.rwk, .port] (x.follow settle i story slot false).2 s t ∧
        t.rwk = (x.follow settle i story slot false).1) ∧
      (∀ i story slot placed, r = .slotWord i story slot placed → loHalf w = story →
        onlyChanges [.rwk, .port] s t ∧ t.rwk = { x with read := some (.slotKind i story slot (hiHalf w) placed) }) ∧
      (∀ i story slot placed, r = .slotWord i story slot placed → loHalf w ≠ story →
        onlyRaises [.rwk, .port] [.linkFault story slot .foreign] s t ∧
        t.rwk = next i { x with bank := { x.bank with faults := x.bank.faults + 1 } }) ∧
      (∀ i story slot next placed, r = .slotKind i story slot next placed → laneOf w 0 = 4 →
        let y : Walker := { x with seen := x.seen ||| BitVec.twoPow 65024 slot }
        onlyRaises [.rwk, .port] (y.follow settle i story next placed).2 s t ∧
        t.rwk = (y.follow settle i story next placed).1) ∧
      (∀ i story slot next placed, r = .slotKind i story slot next placed → laneOf w 0 ≠ 4 → x.bank.rows.length < 8192 →
        let code := laneOf w 0
        let kind : RowKind := if code = 1 then .cue else if code = 2 then .gap else if code = 3 then .stop else .text
        let y : Walker := { x with
          seen := x.seen ||| BitVec.twoPow 65024 slot
          bank := { x.bank with
            rows := x.bank.rows ++ [⟨slot, i, story, kind, !placed⟩]
            stories := if placed then x.bank.stories else x.bank.stories + 1 } }
        onlyRaises [.rwk, .port] (y.follow settle i story next true).2 s t ∧
        t.rwk = (y.follow settle i story next true).1) ∧
      (∀ i story slot next placed, r = .slotKind i story slot next placed → laneOf w 0 ≠ 4 → 8192 ≤ x.bank.rows.length →
        onlyRaises [.rwk, .port] [.mapFull story i slot] s t ∧ t.rwk = x.walkEnd settle)) ∧
  (∀ (s : State) (a : PortAccess), s.port.busy = some a → a.owner = .part .rwk → a.write = false → a.orphan = true →
    ∃ t, exec .walkReadDone s = .next t ∧ onlyChanges [.port] s t ∧
      t = arbitrate (s.withPort { s.port with busy := none }))

/-- The end of a walk: offered with rewalk clear, discarded and settled again with rewalk set, and offered all the same after
four discards. A settle expiry starts a walk in IDLE with map-stale set, and is remembered otherwise (R7, R9, R15 to
R18). That an expiry is a command of its own, and that one with no expiry waiting changes nothing, are the model's (assumptions 8
and 3). -/
def Obligations.WalkEndsAndStarts : Prop :=
  (∀ (x : Walker) (settle : Nat),
    (x.rewalk = false →
      x.walkEnd settle = { x with read := none, phase := .offered, mapStale := false, discards := 0 }) ∧
    (x.rewalk = true → x.discards < 4 → 0 < settle →
      x.walkEnd settle = { x with
        read := none, phase := .idle, bank := { x.bank with rows := [] }, discards := x.discards + 1
        discarded := x.discarded + 1, settle := .running settle }) ∧
    (x.rewalk = true → x.discards < 4 → x.mapStale = true →
      x.walkEnd 0 = { x with
        phase := .walking, rewalk := false, seen := 0, bank := ⟨[], 0, 0, x.discards + 1⟩, read := some (.entryWord 0)
        discards := x.discards + 1, discarded := x.discarded + 1, settle := .elapsed }) ∧
    (x.rewalk = true → 4 ≤ x.discards → x.walkEnd settle = { x with read := none, phase := .offered, discards := 0 })) ∧
  (∀ s : State, s.rwk.settle = .running 0 →
    ∃ t, exec .settleExpiry s = .next t ∧ onlyChanges [.rwk] s t ∧
      (s.rwk.phase = .idle → s.rwk.mapStale = true → t.rwk = { s.rwk with
        settle := .elapsed, phase := .walking, rewalk := false, seen := 0, bank := ⟨[], 0, 0, s.rwk.discards⟩
        read := some (.entryWord 0) }) ∧
      (s.rwk.phase ≠ .idle ∨ s.rwk.mapStale = false → t.rwk = { s.rwk with settle := .elapsed })) ∧
  (∀ s : State, s.rwk.settle ≠ .running 0 → exec .settleExpiry s = .next s)

/-- The active line map holds at most 8,192 rows and never the same slot in two rows, after every command; the bank that the
walker fills keeps the same (R3, R23). -/
def Obligations.MapInvariant : Prop :=
  ∀ (c : Instr) (s t : State), MapOk s → exec c s = .next t →
    MapOk t ∧ t.sce.active.rows.length ≤ 8192 ∧ (t.sce.active.rows.map (·.slot)).Nodup

/-- A write with a structure lane, however it is presented, sets map-stale and restarts the settle timer at the moment it is
taken, and in WALKING sets rewalk; with no content and no commit lane nothing else happens but that it is carried to memory
(R5, R6, R7, R170). That a command whose row is another may present such a write is the model's choice (assumption 13). -/
def Obligations.StructureWriteTaken : Prop :=
  ∀ (c : Instr) (a : Access) (s : State), presentsWrite c a → readyToTake s → structureAccess a.ha a.be = true →
    ∃ t, exec c s = .next t ∧
      (0 < s.sru.set.settle → t.rwk = { s.rwk with
        mapStale := true, settle := .running s.sru.set.settle, rewalk := s.rwk.rewalk || s.rwk.phase == .walking }) ∧
      (s.sru.set.settle = 0 → s.rwk.phase ≠ .idle → t.rwk = { s.rwk with
        mapStale := true, settle := .elapsed, rewalk := s.rwk.rewalk || s.rwk.phase == .walking }) ∧
      (s.sru.set.settle = 0 → s.rwk.phase = .idle → t.rwk = { s.rwk with
        mapStale := true, settle := .elapsed, phase := .walking, rewalk := false, seen := 0
        bank := ⟨[], 0, 0, s.rwk.discards⟩, read := some (.entryWord 0) }) ∧
      (contentAccess a.ha a.be = false → commitAccess a.ha a.be = false →
        onlyChanges [.rwk, .ptp] s t ∧ carriedAs false t a a.be ∧
        t.ptp = { s.ptp with carried := t.ptp.carried, presented := none })

/-! ## Edit holding -/

/-- A write with content lanes is decided at the moment it is taken: it joins the entry of its word, makes a new entry at the
tail when its slot is on air and held, spills when the queue is full, and passes to memory otherwise (R31, R33, R35, R36,
R39, R42, R45). One with the commit lane and no content lane passes to memory and, in effective mode BATCH, marks the HELD
entries of its slot (R39). A write that waits for a spill, withdrawn or not, is decided afresh once a release has been performed,
and not before (R42, R169). That a command whose row is another may present such a write, and that a retry given too early changes
nothing, are the model's choices (assumptions 13 and 3). -/
def Obligations.LineWritesDecided : Prop :=
  (∀ (c : Instr) (a : Access) (s : State), presentsWrite c a → readyToTake s → contentAccess a.ha a.be = true →
    ∃ t, exec c s = .next t ∧ onlyChanges [.rwk, .ptp, .ehu, .sru] s t ∧ walkerSees s a t ∧ decidedWrite false s t a ∧
      t.ptp = { s.ptp with carried := t.ptp.carried, presented := none }) ∧
  (∀ (c : Instr) (a : Access) (s : State), presentsWrite c a → readyToTake s → commitAccess a.ha a.be = true →
    contentAccess a.ha a.be = false →
    ∃ t, exec c s = .next t ∧ onlyChanges [.rwk, .ptp, .ehu] s t ∧ walkerSees s a t ∧ carriedAs false t a a.be ∧
      t.ptp = { s.ptp with carried := t.ptp.carried, presented := none } ∧
      (batched s (slotOf a.ha.toNat) → t.ehu = { s.ehu with queue := s.ehu.queue.map (fun e =>
        if e.slot = slotOf a.ha.toNat ∧ e.state = .held then { e with state := .marked } else e) }) ∧
      (¬batched s (slotOf a.ha.toNat) → t.ehu = s.ehu)) ∧
  (∀ (s : State) (a : Access) (l : Lanes) (gone : Bool), s.ptp.carried = some ⟨a, l, .spill true, gone⟩ → a.write = true →
    contentAccess a.ha a.be = true →
    ∃ u, leaves .spillRetry s u ∧ onlyChanges [.ptp, .ehu, .sru] s u ∧ decidedWrite gone s u a ∧
      u.ptp = { s.ptp with carried := u.ptp.carried }) ∧
  (∀ (s : State) (a : Access) (l : Lanes) (w : Bool), s.ptp.carried = some ⟨a, l, .spill false, w⟩ →
    exec .spillRetry s = .next s)

/-- A release is performed: the entry's bytes reach memory with the mask and data it then has, it leaves the queue, its slot is
marked STALE in the view of every LIVE head, a write waiting for a spill may be decided afresh, and the run reset counts it
(R38, R42, R43, R45, R153). A release that a master reset left at the port without its entry reaches memory with the mask and
data it was left with, and does nothing else (R44, R172, R177); which bytes those are is an inference from the spec (assumption
11). -/
def Obligations.ReleasePerformed : Prop :=
  (∀ (s : State) (a : PortAccess) (e : HoldEntry), MemOk s → s.port.busy = some a → a.owner = .part .ehu → a.write = true →
    a.orphan = false → s.ehu.queue.find? (fun x => x.wa == a.wa) = some e →
    let rest := s.ehu.queue.filter (fun x => x.wa != a.wa)
    let limit := s.sru.set.nearFull
    ∃ t, exec .releaseWriteDone s = .next t ∧ onlyChanges [.mem, .port, .ehu, .hlt, .ptp, .sru] s t ∧
      wordWritten e.wa e.mask e.data s t ∧
      t.ehu = { s.ehu with queue := rest, nearFull := decide (limit ≤ rest.length) } ∧
      (∀ h : Head, let x := s.hlt.get h
        t.hlt.get h = if x.route.source = .live
          then { x with view := x.view.map (fun v => if v.slot = some (slotOf a.wa) then { v with sent := false } else v) }
          else x) ∧
      sruIs { (acceptAll s.sru t
        (if limit ≤ rest.length ∧ s.ehu.nearFull = false then [.holdNear rest.length limit] else [])) with
          resetLeft := s.sru.resetLeft - 1 } t ∧
      (∀ acc l b w, s.ptp.carried = some ⟨acc, l, .spill b, w⟩ →
        t.ptp = { s.ptp with carried := some ⟨acc, l, .spill true, w⟩ }) ∧
      ((∀ k ∈ s.ptp.carried, ∀ b, k.stage ≠ .spill b) → sameBlock s t .ptp)) ∧
  (∀ (s : State) (a : PortAccess), MemOk s → s.port.busy = some a → a.owner = .part .ehu → a.write = true →
    a.orphan = true →
    ∃ t, exec .releaseWriteDone s = .next t ∧ onlyChanges [.mem, .port] s t ∧ wordWritten a.wa a.lanes a.data s t)

/-- At a boundary every MARKED entry is put to release, then every HELD entry of a slot that has one of age 1,000·H or more,
unless H is 0; each such slot raises HOLD_EXPIRED and counts (R40). The on-air list holds the rows of the LIVE heads' views,
widened by the guard band and cut to the map, in centre-out order and at most 63 of them (R29); when it is replaced, the entries
of each slot that leaves it are put to release (R30, R41). The order of the list is an inference from the spec (assumption
20). -/
def Obligations.EhuBoundaryReleases : Prop :=
  (∀ s : State, s.ftu.due.ehu = true →
    let limit := s.sru.set.holdLimit
    let expired (slot : Nat) : Bool := limit != 0 && s.ehu.queue.any (fun e =>
      e.state == .held && e.slot == slot && decide (1000 * limit ≤ (s.ftu.tick - e.arrival).toNat))
    let slots := s.ehu.heldSlots.filter expired
    ∃ t, exec .ehuBoundary s = .next t ∧
      onlyRaises [.ehu, .ftu] (slots.map (fun slot =>
        Event.holdExpired slot (s.ehu.queue.countP (fun e => e.slot == slot && e.state == .held)))) s t ∧
      t.ftu = { s.ftu with due := { s.ftu.due with ehu := false } } ∧
      t.ehu = { s.ehu with
        expiries := s.ehu.expiries + .ofNat 32 slots.length
        queue := s.ehu.queue.map (fun e =>
          if e.state = .marked ∨ (e.state = .held ∧ expired e.slot = true) then { e with state := .releasing } else e) }) ∧
  (∀ (routes : List Route) (g : Nat) (rows : List Row) (row above below : Nat), row < rows.length →
    (∀ r ∈ routes, r.readRow ≤ above ∧ r.rows - r.readRow ≤ below) → (∃ r ∈ routes, r.readRow = above) →
    (∃ r ∈ routes, r.rows - r.readRow = below) →
    let distance (i : Nat) : Nat := if row < i then 2 * (i - row) - 1 else 2 * (row - i)
    ∃ indices : List Nat, (∀ i, i ∈ indices ↔ row ≤ i + above + g ∧ i ≤ row + below + g ∧ i < rows.length) ∧
      indices.Pairwise (fun i j => distance i < distance j) ∧
      onAirList routes g rows row = (indices.take 63).filterMap (fun i => (rows[i]?).map (fun r => ⟨r.slot, r.entry⟩))) ∧
  (∀ (routes : List Route) (g : Nat) (rows : List Row) (row : Nat), routes = [] ∨ rows = [] →
    onAirList routes g rows row = []) ∧
  (∀ (q : Quad Hlt) (r : Route), r ∈ liveRoutes q ↔ ∃ h : Head, r = (q.get h).route ∧ r.source = .live) ∧
  (∀ (x : Ehu) (new : List OnAir), x.recompute new = { x with
    onAir := new
    queue := x.queue.map (fun e =>
      if (∃ a ∈ x.onAir, a.slot = e.slot) ∧ ∀ a ∈ new, a.slot ≠ e.slot then { e with state := .releasing } else e) })

/-- What the part does on its own never changes what a processor read of the rundown, the general window or the line store
would return: releases leave every word reading as before, but for one that a master reset left at the port without its entry
(R37, R38, R171, R177). A command that may take an access that stands presented is among these while none stands (R169). -/
def Obligations.PartKeepsProcessorView : Prop :=
  ∀ (c : Instr) (s t : State), ¬processorsOwn c → (takesStanding c → s.ptp.presented = none) → MemOk s → HoldOk s → PortOk s → ReleaseOk s →
    (∀ a ∈ s.port.busy, a.owner = .part .ehu → a.write = true → a.orphan = false) → exec c s = .next t →
    ∀ wa, rundownBase ≤ wa → processorView t wa = processorView s wa

/-- Every command keeps the canonical form of the script memory, the hold queue as R34 gives it, and an entry for the release in
progress (R38). -/
def Obligations.MemoryAndHoldInvariant : Prop :=
  (∀ (c : Instr) (s t : State), MemOk s → exec c s = .next t → MemOk t) ∧
  (∀ (c : Instr) (s t : State), HoldOk s → exec c s = .next t → HoldOk t) ∧
  (∀ (c : Instr) (s t : State), HoldOk s → ReleaseOk s → exec c s = .next t → ReleaseOk t)

/-! ## The hand links -/

/-- A valid report, its five bytes arriving in HUNT with no gap and no framing error, is taken in the order of R91: the link, the
silence counter, coast, the rate count, the deflection with claim-on-move, the sequence number, and the buttons
(R87 to R92, R99, R102). A claim-on-move is judged by the cases of R109 (R108, R121). The model's choices: one command brings the
five bytes (assumption 18), the absolute microsecond count (assumption 6), and all eight buttons are judged with the settings in
use at the report, before any action they fire is taken (assumption 27). -/
def Obligations.HandReportTaken : Prop :=
  ∀ (s : State) (l : Link) (t0 t1 t2 t3 t4 : Nat) (n d b k : Byte), s.rst.phase = .running → (s.hlr.get l).parser = [] →
    t0 ≤ t1 → t1 ≤ t0 + 2000 → t1 ≤ t2 → t2 ≤ t1 + 2000 → t2 ≤ t3 → t3 ≤ t2 + 2000 → t3 ≤ t4 → t4 ≤ t3 + 2000 →
    0x5A + n + d + b + k = 0 →
    let c := claimantOf l
    let x := s.hlr.get l
    let gone := x.link = .absent ∨ x.link = .lost
    let taken : Int := max (-127) d.toInt
    ∃ t, exec (.handReport l [⟨t0, 0x5A, false⟩, ⟨t1, n, false⟩, ⟨t2, d, false⟩, ⟨t3, b, false⟩, ⟨t4, k, false⟩]) s = .next t ∧
      onlyChanges [.hlr, .helm, .ftu, .sru] s t ∧ t.ftu = { s.ftu with micros := max s.ftu.micros t4 } ∧
      t.helm.lastDeflection = s.helm.lastDeflection.set l taken ∧
      (let y := t.hlr.get l;
        y.parser = [] ∧ y.deflection = taken ∧ y.seq = some n ∧ y.silence = 0 ∧ y.silenceTimer = some 50 ∧
        y.silenceDue = false ∧ y.rateCount = min 255 (x.rateCount + 1) ∧ (gone → y.link = .suspect) ∧
        (¬gone → y.link = x.link) ∧ y.checkErrors = x.checkErrors ∧ y.rateTimer = x.rateTimer ∧ y.rateDue = x.rateDue ∧
        y.tx = x.tx ∧ (x.seq = none → y.seqGaps = x.seqGaps) ∧
        (∀ last, x.seq = some last → y.seqGaps = if n = last + 1 then x.seqGaps else x.seqGaps + 1)) ∧
      (∀ m : Link, m ≠ l → t.hlr.get m = s.hlr.get m) ∧
      (¬movesOut s l taken →
        onlyRaises [.hlr, .helm, .ftu] (if gone then [.linkState l .suspect] else []) s t ∧
        t.helm = { s.helm with
          lastDeflection := s.helm.lastDeflection.set l taken
          coast := if s.helm.holder = some c then false else s.helm.coast }) ∧
      (¬(movesOut s l taken ∧ x.link = .active ∧ ∃ h, s.helm.holder = some h ∧ ¬outranks s h c) →
        let z := Hlr.takeButtons (s.helm.inUse.get l) b { x with link := if gone then .suspect else x.link }
        (t.hlr.get l).buttons = z.buttons ∧ (t.hlr.get l).fired = z.fired) ∧
      (movesOut s l taken → x.link ≠ .active →
        onlyRaises [.hlr, .helm, .ftu] (if gone then [.linkState l .suspect] else []) s t ∧
        t.helm = { s.helm with
          lastDeflection := s.helm.lastDeflection.set l taken, refused := s.helm.refused + 1 }) ∧
      (movesOut s l taken → x.link = .active → s.helm.holder = none →
        onlyRaises [.hlr, .helm, .ftu] [.helmChange none (some c) .claim] s t ∧
        t.helm = { s.helm with
          lastDeflection := s.helm.lastDeflection.set l taken, holder := some c, paused := false, coast := false, cleared := false }) ∧
      (∀ h, movesOut s l taken → x.link = .active → s.helm.holder = some h → outranks s h c →
        onlyRaises [.hlr, .helm, .ftu] [.helmChange (some h) (some c) .claim] s t ∧
        t.helm = { s.helm with
          lastDeflection := s.helm.lastDeflection.set l taken
          holder := some c, stack := h :: s.helm.stack, paused := false, coast := false, cleared := false }) ∧
      (∀ h, movesOut s l taken → x.link = .active → s.helm.holder = some h → ¬outranks s h c →
        onlyChanges [.hlr, .helm, .ftu] s t ∧ stagedTaken s c t ∧
        t.helm = { s.helm with
          lastDeflection := s.helm.lastDeflection.set l taken, waiting := s.helm.waiting ++ [c]
          inUse := t.helm.inUse, staged := t.helm.staged })

/-- A button against its bit of a valid report: an agreeing bit clears the agree count, and the K-th differing one in a row is an
edge; a qualifying edge counts, fires at the count, and starts the press window when it is the first of a longer count
(R93, R94, R96, R97). -/
def Obligations.ButtonRule : Prop :=
  ∀ (c : ClaimantSettings) (byte : Byte) (x : Hlr) (b : Nat) (k : Button) (e : ButtonEntry),
    x.buttons[b]? = some k → c.buttons[b]? = some e →
    let bit := byte.getLsbD b
    let qualifies := e.action ≠ .none ∧ (e.edge = .press ∧ bit = true ∨ e.edge = .lift ∧ bit = false ∨ e.edge = .both)
    let count := if e.edge = .both then 1 else e.count
    let qualifier : Qualifier := if e.edge = .both then (if bit then .set else .clear) else .toggle
    let edged : Button := { k with pressed := bit, agree := 0 }
    (bit = k.pressed → Hlr.takeButton c byte x b = { x with buttons := x.buttons.set b { k with agree := 0 } }) ∧
    (bit ≠ k.pressed → k.agree + 1 < c.debounce →
      Hlr.takeButton c byte x b = { x with buttons := x.buttons.set b { k with agree := k.agree + 1 } }) ∧
    (bit ≠ k.pressed → c.debounce ≤ k.agree + 1 → ¬qualifies →
      Hlr.takeButton c byte x b = { x with buttons := x.buttons.set b edged }) ∧
    (bit ≠ k.pressed → c.debounce ≤ k.agree + 1 → qualifies → count ≤ k.presses + 1 →
      Hlr.takeButton c byte x b = { x with
        buttons := x.buttons.set b { edged with presses := 0, window := none }
        fired := x.fired ++ [⟨e.action, qualifier, x.link == .active⟩] }) ∧
    (bit ≠ k.pressed → c.debounce ≤ k.agree + 1 → qualifies → k.presses + 1 < count →
      Hlr.takeButton c byte x b = { x with
        buttons := x.buttons.set b { edged with
          presses := k.presses + 1
          window := if k.presses = 0 then some c.pressWindow else k.window } })

/-- What breaks a report counts one check error: a byte more than 2,000 µs late, which is then examined in HUNT; a framing error,
which discards the faulty byte too; and a wrong sum, after which the four bytes are examined again. In HUNT a byte other than a
clean 0x5A is discarded and counts nothing (R88, R89). That one command brings the bytes with their times, and that a command whose
row is another runs them through the same parser, are the model's choices (assumptions 6, 13 and 18). -/
def Obligations.BrokenReports : Prop :=
  (∀ (s : State) (l : Link) (p : List (Nat × Byte)) (late : Nat) (data : Byte) (framing : Bool), s.rst.phase = .running →
    (s.hlr.get l).parser = p → p ≠ [] → lastTime p + 2000 < late →
    ∃ t, exec (.byteGap l [⟨late, data, framing⟩]) s = .next t ∧ onlyChanges [.hlr, .ftu] s t ∧
      t.ftu = { s.ftu with micros := max s.ftu.micros late } ∧
      t.hlr = s.hlr.set l { s.hlr.get l with
        checkErrors := (s.hlr.get l).checkErrors + 1
        parser := if data = 0x5A ∧ framing = false then [(late, data)] else [] }) ∧
  (∀ (s : State) (l : Link) (p : List (Nat × Byte)) (time : Nat) (data : Byte), s.rst.phase = .running →
    (s.hlr.get l).parser = p → p ≠ [] → time ≤ lastTime p + 2000 →
    ∃ t, exec (.framingError l [⟨time, data, true⟩]) s = .next t ∧ onlyChanges [.hlr, .ftu] s t ∧
      t.ftu = { s.ftu with micros := max s.ftu.micros time } ∧
      t.hlr = s.hlr.set l { s.hlr.get l with checkErrors := (s.hlr.get l).checkErrors + 1, parser := [] }) ∧
  (∀ (s : State) (l : Link) (b0 b1 b2 b3 : Nat × Byte) (time : Nat) (k : Byte), s.rst.phase = .running →
    (s.hlr.get l).parser = [b0, b1, b2, b3] → time ≤ b3.1 + 2000 → b0.2 + b1.2 + b2.2 + b3.2 + k ≠ 0 →
    ∃ t, exec (.handReport l [⟨time, k, false⟩]) s = .next t ∧ onlyChanges [.hlr, .ftu] s t ∧
      t.hlr = s.hlr.set l { s.hlr.get l with
        checkErrors := (s.hlr.get l).checkErrors + 1
        parser := [b1, b2, b3, (time, k)].dropWhile (fun b => b.2 != 0x5A) }) ∧
  (∀ (s : State) (l : Link) (time : Nat) (data : Byte) (framing : Bool), s.rst.phase = .running →
    (s.hlr.get l).parser = [] → data ≠ 0x5A ∨ framing = true →
    ∃ t, exec (.framingError l [⟨time, data, framing⟩]) s = .next t ∧ onlyChanges [.ftu] s t)

/-- The receiver's timers: a press window that has run out clears its counter without firing; the end of a rate window judges the
link and sends the status message; an expiry of the silence timer counts, coasts a silent holder, and loses a link whose limit
is reached (R96, R99 to R103, R113, R184). That an expiry is a command of its own, that one with no expiry waiting changes
nothing, that coast is tested at an expiry that finds the counter at 80, and that a window end judges the reports of its whole
window, also those before a loss of the link, are the model's (assumptions 8, 3, 28 and 34). -/
def Obligations.ReceiverTimers : Prop :=
  (∀ (s : State) (l : Link) (b : Fin 8) (k : Button), (s.hlr.get l).buttons[b.val]? = some k →
    (k.window = some 0 → ∃ t, exec (.pressWindowExpiry l b) s = .next t ∧ onlyChanges [.hlr] s t ∧
      t.hlr = s.hlr.set l { s.hlr.get l with
        buttons := (s.hlr.get l).buttons.set b.val { k with presses := 0, window := none } }) ∧
    (k.window ≠ some 0 → exec (.pressWindowExpiry l b) s = .next s)) ∧
  (∀ (s : State) (l : Link), (s.hlr.get l).rateDue = true →
    let x := s.hlr.get l
    let link : LinkState := if x.link = .suspect ∨ x.link = .active
      then (if 4 ≤ x.rateCount ∧ x.rateCount ≤ 25 then .active else .suspect) else x.link
    let code : Byte := .ofNat 8 (claimStateCode (claimState s.helm (claimantOf l)) + 4 * flagCode s.helm.paused +
      8 * flagCode s.helm.coast + 16 * flagCode s.sce.stopReached.isSome + 32 * linkStateCode link)
    ∃ t, exec (.rateWindowEnd l) s = .next t ∧
      onlyRaises [.hlr] (if link = x.link then [] else [.linkState l link]) s t ∧
      t.hlr = s.hlr.set l { x with
        link := link, rateCount := 0, rateDue := false, tx := [0xA6, code, 0 - (0xA6 + code)] }) ∧
  (∀ (s : State) (l : Link), (s.hlr.get l).silenceDue = true →
    let x := s.hlr.get l
    let q := min 80 (x.silence + 1)
    let limit := (s.helm.inUse.get l).silenceLimit
    let lost := (x.link = .suspect ∨ x.link = .active) ∧ limit ≠ 0 ∧ limit ≤ q
    ∃ t, exec (.silenceTimerExpiry l) s = .next t ∧
      (¬lost → onlyChanges [.hlr, .helm] s t ∧
        t.hlr = s.hlr.set l { x with silence := q, silenceDue := false } ∧
        t.helm = { s.helm with
          coast := s.helm.coast || decide (s.helm.holder = some (claimantOf l) ∧ max 1 (limit / 2) ≤ q) }) ∧
      (lost → (t.hlr.get l).link = .lost ∧ (t.hlr.get l).seq = none ∧ (t.hlr.get l).silence = 0 ∧
        (t.hlr.get l).silenceTimer = none ∧ t.helm.lastDeflection = s.helm.lastDeflection.set l 0 ∧
        ∀ b ∈ (t.hlr.get l).buttons, b = ⟨false, 0, 0, none⟩) ∧
      (lost → claimState s.helm (claimantOf l) = .idle → onlyRaises [.hlr, .helm] [.linkState l .lost] s t ∧
        t.helm = { s.helm with lastDeflection := s.helm.lastDeflection.set l 0 }) ∧
      (lost → s.helm.holder = some (claimantOf l) → handedOver s t ∧ stagedTaken s (claimantOf l) t ∧
        onlyRaises [.hlr, .helm]
          [.linkState l .lost, .helmChange (some (claimantOf l)) (successor s) .linkLost] s t) ∧
      (lost → claimState s.helm (claimantOf l) = .pending ∨ claimState s.helm (claimantOf l) = .suspended →
        withdrawn s (claimantOf l) t ∧ stagedTaken s (claimantOf l) t ∧
        onlyRaises [.hlr, .helm] [.linkState l .lost] s t))

/-! ## The helm -/

/-- The target HELM presents (R123): 0 with no holder, paused, coasting or on no rows; a lever's by dead zone, curve and scale,
limited to V; AUTO's set speed limited to V. V is the one the scroll engine loaded at its most recent step. -/
def Obligations.TargetSpeedRule : Prop :=
  (∀ s : State, s.helm.holder = none ∨ s.helm.paused = true ∨ s.helm.coast = true ∨ rowCount s = 0 → helmTarget s = 0) ∧
  (∀ (s : State) (l : Link), s.helm.holder = some (claimantOf l) → s.helm.paused = false → s.helm.coast = false →
    0 < rowCount s →
    let c := s.helm.inUse.get l
    let d : Int := if (s.hlr.get l).link = .absent ∨ (s.hlr.get l).link = .lost then 0 else s.helm.lastDeflection.get l
    let m := d.natAbs
    let curve (k : Nat) : Int := ((if c.curveB then s.helm.curveB else s.helm.curveA).getD k 0 : Nat)
    let base := curve (m / 8) + ((curve (m / 8 + 1) - curve (m / 8)) * (m % 8 : Nat)).tdiv 8
    let limited := min ((base * c.scale).tdiv 16) (s.sce.speedLimit : Int)
    (m ≤ c.deadZone → helmTarget s = 0) ∧
    (c.deadZone < m → 0 < d → helmTarget s = limited) ∧
    (c.deadZone < m → d < 0 → helmTarget s = -limited)) ∧
  (∀ s : State, s.helm.holder = some .auto → s.helm.paused = false → s.helm.coast = false → 0 < rowCount s →
    let v : Int := s.sce.speedLimit
    (s.sru.set.autoSpeed < -v → helmTarget s = -v) ∧ (v < s.sru.set.autoSpeed → helmTarget s = v) ∧
    (-v ≤ s.sru.set.autoSpeed → s.sru.set.autoSpeed ≤ v → helmTarget s = s.sru.set.autoSpeed))

/-- The successor among the waiting claimants: the highest level, then SUSPENDED before PENDING, then the most recently
suspended, then the fixed order OPERATOR, PRESENTER, AUTO (R112). -/
def Obligations.SuccessorRule : Prop :=
  ∀ s : State, HelmOk s →
    (successor s = none ↔ s.helm.stack = [] ∧ s.helm.waiting = []) ∧
    ∀ d, successor s = some d →
      (d ∈ s.helm.stack ∨ d ∈ s.helm.waiting) ∧
      ∀ c, c ≠ d → c ∈ s.helm.stack ∨ c ∈ s.helm.waiting →
        levelOf s.sru.set c ≤ levelOf s.sru.set d ∧
        (levelOf s.sru.set c = levelOf s.sru.set d →
          (c ∈ s.helm.stack → ∃ above below, s.helm.stack = above ++ d :: below ∧ c ∈ below) ∧
          (d ∈ s.helm.waiting → c ∈ s.helm.waiting ∧ (c = .auto ∨ d = .operator)))

/-- A TAKE is judged by the five cases of R109: refused on a link that is not ACTIVE, without effect from a claimant that holds
or waits, taking a free helm, preempting a lower level in NEST, and waiting otherwise. -/
def Obligations.TakeJudged : Prop :=
  ∀ (s : State) (l : Link) (q : Qualifier) (active : Bool) (rest : List Fired),
    (s.hlr.get l).fired = ⟨.take, q, active⟩ :: rest →
    let c := claimantOf l
    let idle := claimState s.helm c = .idle
    ∃ t, exec (.take l) s = .next t ∧
      ((s.hlr.get l).link ≠ .active → onlyChanges [.hlr, .helm] s t ∧ firedTaken s l rest t ∧
        t.helm = { s.helm with refused := s.helm.refused + 1 }) ∧
      ((s.hlr.get l).link = .active → ¬idle → onlyChanges [.hlr] s t ∧ firedTaken s l rest t) ∧
      ((s.hlr.get l).link = .active → idle → s.helm.holder = none →
        onlyRaises [.hlr, .helm] [.helmChange none (some c) .claim] s t ∧ firedTaken s l rest t ∧
        t.helm = { s.helm with holder := some c, paused := false, coast := false, cleared := false }) ∧
      (∀ h, (s.hlr.get l).link = .active → idle → s.helm.holder = some h → s.sru.set.helmMode = .nest →
        levelOf s.sru.set h < levelOf s.sru.set c →
        onlyRaises [.hlr, .helm] [.helmChange (some h) (some c) .claim] s t ∧ firedTaken s l rest t ∧
        t.helm = { s.helm with holder := some c, stack := h :: s.helm.stack, paused := false, coast := false, cleared := false }) ∧
      (∀ h, (s.hlr.get l).link = .active → idle → s.helm.holder = some h →
        s.sru.set.helmMode = .single ∨ levelOf s.sru.set c ≤ levelOf s.sru.set h →
        t.helm.holder = some h ∧ t.helm.stack = s.helm.stack ∧ stagedTaken s c t ∧ firedTakenStaged s l rest t ∧
        ((∀ n, .silenceLimit n ∉ s.helm.staged.get l) →
          onlyChanges [.hlr, .helm] s t ∧ t.helm.waiting = s.helm.waiting ++ [c] ∧
          t.helm.paused = s.helm.paused ∧ t.helm.coast = s.helm.coast))

/-- A RELEASE from the holder hands the helm to the successor, or leaves it free, and clears both flags; from a claimant that waits
it withdraws it; from an IDLE one it has no effect (R111, R113, R117, R121). -/
def Obligations.ReleaseHandsOver : Prop :=
  ∀ (s : State) (l : Link) (q : Qualifier) (active : Bool) (rest : List Fired),
    HelmOk s → (s.hlr.get l).fired = ⟨.release, q, active⟩ :: rest →
    let c := claimantOf l
    ∃ t, exec (.release l) s = .next t ∧
      (s.helm.holder = some c → handedOver s t ∧ stagedTaken s c t ∧ firedTakenStaged s l rest t ∧
        (∃ es, onlyRaises [.hlr, .helm] (es ++ [.helmChange (some c) (successor s) .release]) s t) ∧
        ((∀ n, .silenceLimit n ∉ s.helm.staged.get l) →
          onlyRaises [.hlr, .helm] [.helmChange (some c) (successor s) .release] s t)) ∧
      (claimState s.helm c = .pending ∨ claimState s.helm c = .suspended → withdrawn s c t ∧ stagedTaken s c t ∧
        firedTakenStaged s l rest t ∧ ((∀ n, .silenceLimit n ∉ s.helm.staged.get l) → onlyChanges [.hlr, .helm] s t)) ∧
      (claimState s.helm c = .idle → onlyChanges [.hlr] s t ∧ firedTaken s l rest t)

/-- PAUSE and the jump actions are the holder's: a PAUSE acts by its qualifier and a jump sets the request register; from any other
claimant they are ignored (R77, R118, R120). That a CLEAR taken before the step of a boundary comes together with it is an inference
from the spec (assumption 35). -/
def Obligations.HolderActions : Prop :=
  (∀ (s : State) (l : Link) (q : Qualifier) (active : Bool) (rest : List Fired),
    (s.hlr.get l).fired = ⟨.pause, q, active⟩ :: rest →
    ∃ t, exec (.pause l) s = .next t ∧ firedTaken s l rest t ∧
      (s.helm.holder = some (claimantOf l) → onlyChanges [.hlr, .helm] s t ∧
        t.helm = { s.helm with
          paused := match q with | .toggle => !s.helm.paused | .set => true | .clear => false
          cleared := q == .clear && s.ftu.due.sce }) ∧
      (s.helm.holder ≠ some (claimantOf l) → onlyChanges [.hlr] s t)) ∧
  (∀ (c : Instr) (j : Jump) (a : Action) (s : State) (l : Link) (q : Qualifier) (active : Bool) (rest : List Fired),
    (c = .returnMark l ∧ j = .returnMark ∧ a = .returnMark ∨ c = .nextStory l ∧ j = .nextStory ∧ a = .nextStory ∨
      c = .prevStory l ∧ j = .prevStory ∧ a = .prevStory) →
    (s.hlr.get l).fired = ⟨a, q, active⟩ :: rest →
    ∃ t, exec c s = .next t ∧ firedTaken s l rest t ∧
      (s.helm.holder = some (claimantOf l) → onlyChanges [.hlr, .sce] s t ∧ t.sce = { s.sce with jump := some j }) ∧
      (s.helm.holder ≠ some (claimantOf l) → onlyChanges [.hlr] s t))

/-- The helm's own settings act when they are taken: a level re-runs preemption in NEST, a change of mode turns the suspended to
pending, each putting its staged settings into use, where a silence limit already reached loses the link and withdraws the
claimant, or re-runs preemption, and AUTO's enable word is a claim or a release (R95, R101, R106, R107, R110, R113, R115, R116,
R121, R187). The queue of hand-overs by which the SRU comes to the word is the model's (assumption 9), and so is where the
levels and the enable word are kept (assumption 22). -/
def Obligations.HelmSettingsAct : Prop :=
  (∀ (s : State) (c : Claimant) (w : Word) (rest : List Handover),
    let o := match c with | .operator => 0x30 | .presenter => 0x34 | .auto => 0x38
    s.ptp.handovers = .setting o w :: rest →
    let n := if w = 0 then levelOf s.sru.set c else min 3 w.toNat
    let ranked := withSettings s (s.sru.set.setLevel c n)
    ∃ t, leaves .levelWrite s t ∧ handoverTaken rest s t ∧ t.sru.set = s.sru.set.setLevel c n ∧
      onlyChanges [.ptp, .sru, .helm] s t ∧
      (∀ h d, s.sru.set.helmMode = .nest → s.helm.holder = some h → successor ranked = some d →
        levelOf ranked.sru.set h < levelOf ranked.sru.set d → preempted s h d t ∧
        eventsTaken (clampReport o n w ++ [.helmChange (some h) (some d) .level]) s t) ∧
      ((∀ h d, s.sru.set.helmMode = .nest → s.helm.holder = some h → successor ranked = some d →
        levelOf ranked.sru.set d ≤ levelOf ranked.sru.set h) → t.helm = s.helm ∧ eventsTaken (clampReport o n w) s t)) ∧
  (∀ (s : State) (w : Word) (rest : List Handover), s.ptp.handovers = .setting 0x2C w :: rest →
    let m : HelmMode := if w = 0 then .nest else .single
    let report := clampReport 0x2C (if w = 0 then 0 else 1) w
    ∃ t, leaves .helmModeWrite s t ∧ handoverTaken rest s t ∧ t.sru.set = { s.sru.set with helmMode := m } ∧
      onlyChanges [.ptp, .sru, .helm, .hlr] s t ∧
      (s.sru.set.helmMode = m → t.helm = s.helm ∧ t.hlr = s.hlr ∧ eventsTaken report s t) ∧
      (s.sru.set.helmMode = .nest → m = .single → s.helm.staged = ⟨[], []⟩ →
        t.helm = { s.helm with stack := [], waiting := s.helm.waiting ++ s.helm.stack } ∧ t.hlr = s.hlr ∧
        eventsTaken report s t) ∧
      (s.sru.set.helmMode = .nest → m = .single →
        t.helm = { s.helm with
          stack := [], waiting := t.helm.waiting, inUse := t.helm.inUse, staged := t.helm.staged
          lastDeflection := t.helm.lastDeflection } ∧
        (.auto ∈ t.helm.waiting ↔ .auto ∈ s.helm.waiting ∨ .auto ∈ s.helm.stack) ∧
        ∀ l : Link, let c := claimantOf l
          let x := s.hlr.get l
          let staged := s.helm.staged.get l
          let loses := c ∈ s.helm.stack ∧ (x.link = .suspect ∨ x.link = .active) ∧
            ∃ n, .silenceLimit n ∈ staged ∧ n ≠ 0 ∧ n ≤ x.silence
          (c ∈ s.helm.stack → t.helm.staged.get l = [] ∧
            t.helm.inUse.get l = staged.foldl ClaimantSettings.update (s.helm.inUse.get l)) ∧
          (c ∉ s.helm.stack → t.helm.staged.get l = staged ∧ t.helm.inUse.get l = s.helm.inUse.get l ∧ t.hlr.get l = x) ∧
          (loses → (t.hlr.get l).link = .lost ∧ t.helm.lastDeflection.get l = 0 ∧ c ∉ t.helm.waiting) ∧
          (¬loses → (t.hlr.get l).link = x.link ∧ t.helm.lastDeflection.get l = s.helm.lastDeflection.get l ∧
            (c ∈ t.helm.waiting ↔ c ∈ s.helm.waiting ∨ c ∈ s.helm.stack))) ∧
      (s.sru.set.helmMode = .nest → m = .single →
        (∀ l n, claimantOf l ∈ s.helm.stack → .silenceLimit n ∉ s.helm.staged.get l) →
        t.helm.waiting = s.helm.waiting ++ s.helm.stack ∧ t.helm.lastDeflection = s.helm.lastDeflection ∧
        eventsTaken report s t) ∧
      (∀ h d, s.sru.set.helmMode = .single → m = .nest → s.helm.holder = some h → successor s = some d →
        levelOf s.sru.set h < levelOf s.sru.set d →
        preempted s h d t ∧ t.hlr = s.hlr ∧ eventsTaken (report ++ [.helmChange (some h) (some d) .mode]) s t) ∧
      (s.sru.set.helmMode = .single → m = .nest →
        (∀ h d, s.helm.holder = some h → successor s = some d → levelOf s.sru.set d ≤ levelOf s.sru.set h) →
        t.helm = s.helm ∧ t.hlr = s.hlr ∧ eventsTaken report s t)) ∧
  (∀ (s : State) (w : Word) (rest : List Handover), s.ptp.handovers = .setting 0x3C w :: rest →
    let report := clampReport 0x3C (if w = 0 then 0 else 1) w
    ∃ t, leaves .autoEnableWrite s t ∧ handoverTaken rest s t ∧
      t.sru.set = { s.sru.set with autoEnable := w != 0 } ∧ onlyChanges [.ptp, .sru, .helm] s t ∧
      (w ≠ 0 → s.helm.holder = none → claimState s.helm .auto = .idle →
        t.helm = { s.helm with holder := some .auto, paused := false, coast := false, cleared := false } ∧
        eventsTaken (report ++ [.helmChange none (some .auto) .claim]) s t) ∧
      (w ≠ 0 → claimState s.helm .auto ≠ .idle → t.helm = s.helm ∧ eventsTaken report s t) ∧
      (∀ h, w ≠ 0 → s.helm.holder = some h → claimState s.helm .auto = .idle →
        s.sru.set.helmMode = .single ∨ levelOf s.sru.set .auto ≤ levelOf s.sru.set h →
        t.helm = { s.helm with waiting := s.helm.waiting ++ [.auto] } ∧ eventsTaken report s t) ∧
      (∀ h, w ≠ 0 → s.helm.holder = some h → claimState s.helm .auto = .idle → s.sru.set.helmMode = .nest →
        levelOf s.sru.set h < levelOf s.sru.set .auto →
        t.helm = { s.helm with holder := some .auto, stack := h :: s.helm.stack, paused := false, coast := false, cleared := false } ∧
        eventsTaken (report ++ [.helmChange (some h) (some .auto) .claim]) s t) ∧
      (w = 0 → s.helm.holder = some .auto → handedOver s t ∧
        eventsTaken (report ++ [.helmChange (some .auto) (successor s) .autoOff]) s t) ∧
      (w = 0 → claimState s.helm .auto = .pending ∨ claimState s.helm .auto = .suspended →
        withdrawn s .auto t ∧ eventsTaken report s t) ∧
      (w = 0 → claimState s.helm .auto = .idle → t.helm = s.helm ∧ eventsTaken report s t))

/-- A claimant setting is in use at once for an IDLE or PENDING claimant and staged for one that holds or is suspended, in place of
an earlier value of the same setting, and each word is clamped and reported as R180 and R187 give; the curves are loaded at the
boundary (R94, R95, R121, R122, R183). The queue of hand-overs is the model's (assumption 9), and so is where HELM keeps the settings
(assumption 22). -/
def Obligations.ClaimantSettingsTaken : Prop :=
  (∀ (s : State) (o : Nat) (l : Link) (f : ClaimantField) (w : Word) (rest : List Handover),
    s.ptp.handovers = .setting o w :: rest → controlWordAt o = some (.claimant l f) →
    let u := (takeClaimantWord f w).update
    let report : List Event := if (takeClaimantWord f w).clamped
      then [.settingClamped o (.ofNat 16 (takeClaimantWord f w).effective) w] else []
    let waits := claimState s.helm (claimantOf l) = .idle ∨ claimState s.helm (claimantOf l) = .pending
    ∃ t, leaves .claimantSettingWrite s t ∧ handoverTaken rest s t ∧
      onlyChanges [.ptp, .sru, .helm, .hlr] s t ∧ t.sru.set = s.sru.set ∧
      (waits → t.helm.inUse = s.helm.inUse.set l ((s.helm.inUse.get l).update u) ∧ t.helm.staged = s.helm.staged) ∧
      (waits → (∀ n, u ≠ .silenceLimit n) → eventsTaken report s t ∧
        t.helm = { s.helm with inUse := t.helm.inUse } ∧
        (∀ b e, u = .button b e → t.hlr = s.hlr.set l { s.hlr.get l with
          buttons := (s.hlr.get l).buttons.map (fun k => { k with presses := 0, window := none }) }) ∧
        (∀ k, u = .debounce k → t.hlr = s.hlr.set l { s.hlr.get l with
          buttons := (s.hlr.get l).buttons.map (fun k => { k with agree := 0 }) }) ∧
        ((∀ b e, u ≠ .button b e) → (∀ k, u ≠ .debounce k) → t.hlr = s.hlr)) ∧
      (∀ n, waits → u = .silenceLimit n →
        n = 0 ∨ (s.hlr.get l).silence < n ∨ (s.hlr.get l).link = .absent ∨ (s.hlr.get l).link = .lost → eventsTaken report s t ∧
        t.helm = { s.helm with inUse := t.helm.inUse } ∧ t.hlr = s.hlr) ∧
      (∀ n, waits → u = .silenceLimit n → n ≠ 0 → n ≤ (s.hlr.get l).silence →
        (s.hlr.get l).link = .suspect ∨ (s.hlr.get l).link = .active →
        (t.hlr.get l).link = .lost ∧ claimState t.helm (claimantOf l) = .idle ∧
        eventsTaken (report ++ [.linkState l .lost]) s t) ∧
      (¬waits → eventsTaken report s t ∧ t.hlr = s.hlr ∧
        t.helm = { s.helm with
          staged := s.helm.staged.set l ((s.helm.staged.get l).filter (fun v => !u.sameSetting v) ++ [u]) })) ∧
  (∀ s : State, s.ftu.due.helm = true →
    ∃ t, exec .curveLoad s = .next t ∧ onlyChanges [.helm, .ftu] s t ∧
      t.helm = { s.helm with curveA := s.sru.set.curveA, curveB := s.sru.set.curveB } ∧
      t.ftu = { s.ftu with due := { s.ftu.due with helm := false } }) ∧
  (∀ l : Link, let base := match l with | .operator => 0x80 | .presenter => 0xC0
    ([0x00, 0x04, 0x08, 0x0C, 0x10, 0x14, 0x18].map (fun o => controlWordAt (base + o)) =
      [ClaimantField.curve, .deadZone, .scale, .claimOnMove, .debounce, .pressWindow, .silenceLimit].map
        (fun f => some (.claimant l f))) ∧
    ∀ b, b < 8 → controlWordAt (base + 0x20 + 4 * b) = some (.claimant l (.button b))) ∧
  (∀ w : Word, let n := w.toNat
    let flag : Bool := w != 0
    let code := if w = 0 then 0 else 1
    let number (lo hi : Nat) (f : Nat → ClaimantUpdate) : TakenClaimant :=
      ⟨f (max lo (min hi n)), max lo (min hi n), decide (n < lo ∨ hi < n)⟩
    takeClaimantWord .curve w = ⟨.curve flag, code, decide (1 < n)⟩ ∧
    takeClaimantWord .claimOnMove w = ⟨.claimOnMove flag, code, decide (1 < n)⟩ ∧
    takeClaimantWord .deadZone w = number 0 31 .deadZone ∧ takeClaimantWord .scale w = number 1 32 .scale ∧
    takeClaimantWord .debounce w = number 1 4 .debounce ∧
    takeClaimantWord .pressWindow w = number 100 2000 .pressWindow ∧
    takeClaimantWord .silenceLimit w = number 0 80 .silenceLimit ∧
    ∀ b, let action := (laneOf w 0).toNat
      let edge := (laneOf w 1).toNat
      let count := (laneOf w 2).toNat
      let a := if action < 8 then action else 0
      let e := min 2 edge
      let c := if count ≤ 1 then 1 else if count = 2 then 2 else 4
      takeClaimantWord (.button b) w = ⟨.button b ⟨[Action.none, .take, .release, .pause, .mark, .returnMark, .nextStory,
        .prevStory].getD a .none, [Edge.press, .lift, .both].getD e .both, c⟩, a + 16 * e + 256 * c,
        decide (7 < action ∨ 2 < edge ∨ (count ≠ 1 ∧ count ≠ 2 ∧ count ≠ 4))⟩)

/-- Every command keeps the claimants' states as R105 gives them. -/
def Obligations.HelmInvariant : Prop := ∀ (c : Instr) (s t : State), HelmOk s → exec c s = .next t → HelmOk t

/-- Whatever changes the holder, short of a master reset, leaves the paused and coast flags clear and the HELM group set in the
attention latch (R117, R198). -/
def Obligations.HolderChange : Prop :=
  ∀ (c : Instr) (s t : State), ¬mayReset c → exec c s = .next t → t.helm.holder ≠ s.helm.holder →
    t.helm.paused = false ∧ t.helm.coast = false ∧ t.sru.latch.getLsbD 3 = true

/-! ## The prompt heads -/

/-- A boundary at a transmitter: the frame before is closed, its abandoned positions STALE and a full stale made since applied
(R149, R157, R167); the route is loaded, a route change or a stall changes the head's state and stales its view (R145, R155,
R156, R160); a LIVE head's view is shifted and installed, and the on-air list recomputed for a head that is or was LIVE (R30,
R147, R150, R151); every head but an OFF one is sent a FRAME, and in state UP the rows of its STALE positions are built (R140,
R148, R152, R163, R164, R185). That the transmitter works after the scroll step, and that the positions a frame sends are judged at
the boundary, are inferences from the spec (assumptions 7 and 30); so is that an injected check is decided when a ROW begins on the
line (assumption 16), and what a row is whose view entry and map index disagree is the model's choice (assumption 31). -/
def Obligations.HeadFrameSent : Prop :=
  ∀ (s : State) (h : Head), s.ftu.due.hlt.get h = true → s.ftu.due.sce = false →
    let old := s.hlt.get h
    let r := s.sru.set.routes.get h
    let rows := s.sce.active.rows
    let changes := old.route.source ≠ r.source ∨ old.route.rows ≠ r.rows ∨ old.route.readRow ≠ r.readRow ∨
      old.route.mirror ≠ r.mirror
    let lag := match old.lastAck with | some a => (s.ftu.frame - a).toNat | none => 0
    let stalls := ¬changes ∧ old.state = .up ∧ r.source ≠ .off ∧ r.stall < lag
    let state : HeadState := if changes then .silent else if stalls then .stalled else old.state
    let card := r.source = .card1 ∨ r.source = .card2 ∨ r.source = .card3
    let top : Int := if r.source = .live then (s.sce.pos / 4096 : Nat) - (r.readRow : Int) else 0
    let fraction := if r.source = .live then s.sce.pos % 4096 else 0
    let body : List Byte := [0xF1, 12] ++ bytesOfHalf s.ftu.frame ++ bytesOfHalf (.ofInt 16 top) ++
      bytesOfHalf (.ofNat 16 fraction) ++ [.ofNat 8 (if card then 0 else r.readRow), .ofNat 8 (if card then 4 else r.rows),
        .ofNat 8 (flagCode r.mirror + (if card then 2 else 0) + (if r.source = .test then 4 else 0))]
    let closed := if changes ∧ card then List.replicate 4 ⟨none, false⟩
      else if changes ∨ stalls then (closedView old).map (fun v => { v with sent := false }) else closedView old
    let view := if r.source = .live then shiftView rows closed r.rows old.prevTop top else closed
    let positions := (positionsOf r).filter (fun p => r.source == .test || (view[p]?).any (fun v => !v.sent))
    let loaded : Hlt := { old with
      route := r, view := closed, staleDue := false, state := state, todo := [], build := none, queued := []
      lastAck := if changes then none else old.lastAck, rejected := if changes then none else old.rejected
      inject := if s.sru.set.injectWritten.get h then r.inject else old.inject
      injectLoaded := if s.sru.set.injectWritten.get h then r.inject else old.injectLoaded }
    ∃ t, exec (.hltFrame h) s = .next t ∧ onlyChanges [.hlt, .ftu, .ehu, .sru, .port] s t ∧
      (∀ k : Head, k ≠ h → t.hlt.get k = s.hlt.get k) ∧
      t.ftu = { s.ftu with due := { s.ftu.due with hlt := s.ftu.due.hlt.set h false } } ∧
      t.sru.set = { s.sru.set with injectWritten := s.sru.set.injectWritten.set h false } ∧
      (changes → old.state ≠ .silent → eventsTaken [.headState h .silent 0] s t) ∧
      (stalls → eventsTaken [.headState h .stalled lag] s t) ∧
      (¬(changes ∧ old.state ≠ .silent) → ¬stalls → eventsTaken [] s t) ∧
      (r.source = .live ∨ old.route.source = .live → t.ehu = s.ehu.recompute
        (onAirList (liveRoutes t.hlt) s.sru.set.guardBand rows (s.sce.pos / 4096))) ∧
      (r.source ≠ .live → old.route.source ≠ .live → t.ehu = s.ehu) ∧
      (∀ a, s.port.busy = some a →
        t.port.busy = some (if a.owner = .part (.hlt h) then { a with orphan := true } else a)) ∧
      (r.source = .off → t.hlt.get h = loaded) ∧
      (r.source ≠ .off → ∃ z : Hlt,
        z = { loaded with
          view := view, prevTop := top, budgetLeft := r.budget - 12, sending := z.sending, queued := z.queued } ∧
        (old.sending = none →
          z.queued = [] ∧ ∃ k, z.sending = some ⟨none, body ++ [k], false⟩ ∧ byteSum (body ++ [k]) = 0) ∧
        (old.sending ≠ none → z.sending = old.sending ∧ z.queued = [⟨none, body⟩]) ∧
        (state = .up → t.hlt.get h = Hlt.buildRows rows s.ftu.frame positions z) ∧
        (state ≠ .up → t.hlt.get h = z))

/-- The shift of a view to a new top index: each position takes the slot of its map index, and keeps SENT only from a shifted
predecessor on the same slot (R147, R150). -/
def Obligations.ViewShift : Prop :=
  ∀ (rows : List Row) (view : List ViewEntry) (size : Nat) (previous top : Int),
    (shiftView rows view size previous top).length = size + 1 ∧
    ∀ p : Nat, p ≤ size → ∃ e, (shiftView rows view size previous top)[p]? = some e ∧
      (∀ r, 0 ≤ top + p → rows[(top + p).toNat]? = some r → e.slot = some r.slot) ∧
      (top + p < 0 ∨ (rows.length : Int) ≤ top + p → e.slot = none) ∧
      (∀ v, 0 ≤ p + (top - previous) → p + (top - previous) ≤ size → view[(p + (top - previous)).toNat]? = some v →
        (v.slot = e.slot → e.sent = v.sent) ∧ (v.slot ≠ e.slot → e.sent = false)) ∧
      (p + (top - previous) < 0 ∨ (size : Int) < p + (top - previous) → e.sent = false)

/-- Rows are built centre-out from the read row until one does not fit: a NONE position is a GAP row that needs no read, a slot
or a card row is read first, and a TEST row carries the decimal digits of its position and of the frame number, without leading
zeros; each ROW is charged its bytes and goes on the line or waits behind the message on it (R138, R141, R152, R160, R162,
R164). A read for a ROW completes: the length found is charged or stops the building, the text is read word by word, and the ROW
that is whole is charged, queued and followed by the next (R154, R185). A read whose frame has been closed gives nothing (R149).
That a position with a slot whose map index lies outside the map is sent as TEXT, story-first clear, and a NONE position whose
map index lies inside it as a GAP row, and that kind and story-first are taken when the row's building begins, is the model's
choice (assumption 31); that an injected check is decided when the ROW begins on the line is an inference from the spec
(assumption 16). -/
def Obligations.RowsBuilt : Prop :=
  (∀ r : Route, r.readRow ≤ r.rows →
    let positions := positionsOf r
    let centre := if (cardOf r.source).isSome then 0 else r.readRow
    let key (p : Nat) : Nat := if centre < p then 2 * (p - centre) - 1 else 2 * (centre - p)
    (∀ p, p ∈ positions ↔ p ≤ if (cardOf r.source).isSome then 3 else r.rows) ∧
    positions.Pairwise (fun p q => key p < key q)) ∧
  (∀ (rows : List Row) (frame : Half) (p : Nat) (rest : List Nat) (x : Hlt) (v : ViewEntry), x.route.source = .live →
    x.view[p]? = some v →
    let stop : Hlt := { x with todo := [], build := none }
    let sent : Hlt := { x with view := markPosition x.view true p }
    (v.slot = none → 6 ≤ x.budgetLeft → Hlt.buildRows rows frame (p :: rest) x =
      Hlt.buildRows rows frame rest (sent.queueRow p [0xF2, 6, .ofNat 8 p, 2, 0])) ∧
    (v.slot = none → x.budgetLeft < 6 → Hlt.buildRows rows frame (p :: rest) x = stop) ∧
    (∀ n r, v.slot = some n → 0 ≤ x.prevTop + p → rows[(x.prevTop + p).toNat]? = some r →
      Hlt.buildRows rows frame (p :: rest) x =
        { sent with todo := rest, build := some ⟨p, .slot n r.kind r.first, .header⟩ }) ∧
    (∀ n, v.slot = some n → x.prevTop + p < 0 ∨ (rows.length : Int) ≤ x.prevTop + p →
      Hlt.buildRows rows frame (p :: rest) x =
        { sent with todo := rest, build := some ⟨p, .slot n .text false, .header⟩ })) ∧
  (∀ (rows : List Row) (frame : Half) (p : Nat) (rest : List Nat) (x : Hlt) (c : Nat), cardOf x.route.source = some c →
    Hlt.buildRows rows frame (p :: rest) x =
      { x with view := markPosition x.view true p, todo := rest, build := some ⟨p, .card c p, .header⟩ }) ∧
  (∀ (view : List ViewEntry) (sent : Bool) (p q : Nat),
    (markPosition view sent p)[q]? = (view[q]?).map (fun v => if q = p then { v with sent := sent } else v)) ∧
  (∀ (x : Hlt) (p : Nat) (body : List Byte), let left := x.budgetLeft - (body.length + 1)
    (x.sending ≠ none → x.queueRow p body = { x with budgetLeft := left, queued := x.queued ++ [⟨some p, body⟩] }) ∧
    (x.sending = none → ∃ k, x.queueRow p body = { x with
      budgetLeft := left, sending := some ⟨some p, body ++ [k], x.inject != 0⟩ } ∧
      (x.inject = 0 → byteSum (body ++ [k]) = 0) ∧ (x.inject ≠ 0 → byteSum (body ++ [~~~k]) = 0))) ∧
  (∀ (frame : Half) (rows : List Row) (p : Nat) (rest : List Nat) (x : Hlt), x.route.source = .test →
    let text := decimal p ++ [0x20] ++ decimal frame.toNat
    (6 + text.length ≤ x.budgetLeft → Hlt.buildRows rows frame (p :: rest) x =
      Hlt.buildRows rows frame rest (x.queueRow p ([0xF2, .ofNat 8 (6 + text.length), .ofNat 8 p, 0, 0] ++ text))) ∧
    (x.budgetLeft < 6 + text.length → Hlt.buildRows rows frame (p :: rest) x = { x with todo := [], build := none })) ∧
  (∀ n, n < 65536 → let digits := decimal n
    digits ≠ [] ∧ (∀ d ∈ digits, 0x30 ≤ d.toNat ∧ d.toNat ≤ 0x39) ∧
      digits.foldl (fun v d => 10 * v + (d.toNat - 0x30)) 0 = n ∧ (1 < digits.length → digits.head? ≠ some 0x30)) ∧
  (∀ (frame : Half) (rows : List Row) (x : Hlt), Hlt.buildRows rows frame [] x = { x with todo := [], build := none }) ∧
  (∀ (s : State) (a : PortAccess) (h : Head) (b : RowBuild), s.port.busy = some a → a.owner = .part (.hlt h) →
    a.orphan = false → (s.hlt.get h).build = some b →
    let w := readWord s.mem a.wa
    let x := s.hlt.get h
    let rows := s.sce.active.rows
    let row (style : Byte) (text : List Byte) : Hlt := Hlt.buildRows rows s.ftu.frame x.todo
      (Hlt.queueRow { x with build := none } b.position (rowMessage b style text))
    let n := match b.source with | .slot _ _ _ => min (laneOf w 1).toNat 120 | .card _ _ => min (laneOf w 0).toNat 60
    let style : Byte := match b.source with | .slot _ _ _ => laneOf w 3 | .card _ _ => 0
    ∃ t, exec .rowReadDone s = .next t ∧ onlyChanges [.hlt, .port] s t ∧
      (∀ k : Head, k ≠ h → t.hlt.get k = s.hlt.get k) ∧
      (b.stage = .header → x.budgetLeft < 6 + n →
        t.hlt.get h = { x with view := markPosition x.view false b.position, todo := [], build := none }) ∧
      (b.stage = .header → 6 + n ≤ x.budgetLeft → 0 < n →
        t.hlt.get h = { x with build := some { b with stage := .text style n [] } }) ∧
      (b.stage = .header → 6 + n ≤ x.budgetLeft → n = 0 → t.hlt.get h = row style []) ∧
      (∀ y m words, b.stage = .text y m words → 4 * (words.length + 1) < m →
        t.hlt.get h = { x with build := some { b with stage := .text y m (words ++ [w]) } }) ∧
      (∀ y m words, b.stage = .text y m words → m ≤ 4 * (words.length + 1) →
        t.hlt.get h = row y (((words ++ [w]).flatMap bytesOf).take m))) ∧
  (∀ (s : State) (a : PortAccess) (h : Head), s.port.busy = some a → a.owner = .part (.hlt h) → a.orphan = true →
    ∃ t, exec .rowReadDone s = .next t ∧ onlyChanges [.port] s t)

/-- A valid ACK, its seven bytes arriving with no gap, brings the head UP, compares the rejected count, and marks the whole view
stale where R155 says, from the following boundary on; an OFF head's is discarded. A broken one changes nothing but what the
receiver holds: a byte more than 100 µs late and a byte after a wrong length byte are examined afresh, a framing error discards
all, and after a wrong sum the bytes that followed the type byte are examined again; none are taken before initialisation has
ended (R139). The message on the line is sent and the next begins; an injected one counts down (R138, R139, R142, R155, R157 to
R159, R163 to R165), a changed rejected count showing a message that the head discarded (R143). The model's choices: the
injection is decided when a ROW begins on the line, and which count its event carries (assumption 16); seven bytes come in one
command (assumption 18) with absolute microsecond counts (assumption 6); a command with nothing on the line, or before
initialisation has ended, changes nothing (assumption 3); and a HEAD_ACK may bring bytes that end no ACK (assumption 13). That a
wrong length byte discards at once is an inference from the spec (assumption 17). So is that a full stale is remembered for the
following boundary (assumption 30). -/
def Obligations.AcksAndMessages : Prop :=
  (∀ (s : State) (h : Head) (t0 t1 t2 t3 t4 t5 t6 : Nat) (f0 f1 count flags k : Byte), s.rst.phase = .running →
    (s.hlt.get h).ackParser = [] → t1 ≤ t0 + 100 → t2 ≤ t1 + 100 → t3 ≤ t2 + 100 → t4 ≤ t3 + 100 → t5 ≤ t4 + 100 →
    t6 ≤ t5 + 100 → 0xC3 + 7 + f0 + f1 + count + flags + k = 0 →
    let x := s.hlt.get h
    let drawn : Half := .ofNat 16 (f0.toNat + 256 * f1.toNat)
    let stale := x.state ≠ .up ∨ (∃ c, x.rejected = some c ∧ c ≠ count) ∨ flags.getLsbD 0 = false
    ∃ t, exec (.headAck h [⟨t0, 0xC3, false⟩, ⟨t1, 7, false⟩, ⟨t2, f0, false⟩, ⟨t3, f1, false⟩, ⟨t4, count, false⟩,
        ⟨t5, flags, false⟩, ⟨t6, k, false⟩]) s = .next t ∧
      t.ftu = { s.ftu with micros := [t0, t1, t2, t3, t4, t5, t6].foldl max s.ftu.micros } ∧
      (x.route.source = .off → onlyChanges [.ftu] s t) ∧
      (x.route.source ≠ .off →
        onlyRaises [.hlt, .ftu] (if x.state = .up then [] else [.headState h .up (s.ftu.frame - drawn).toNat]) s t ∧
        t.hlt = s.hlt.set h { x with
          state := .up, lastAck := some drawn, rejected := some count
          view := (t.hlt.get h).view, staleDue := (t.hlt.get h).staleDue } ∧
        (stale → (t.hlt.get h).view = x.view.map (fun v => { v with sent := false }) ∧
          (t.hlt.get h).staleDue = true) ∧
        (¬stale → (t.hlt.get h).view = x.view ∧ (t.hlt.get h).staleDue = x.staleDue))) ∧
  (∀ (s : State) (h : Head) (time : Nat) (data : Byte) (framing : Bool), s.rst.phase = .running →
    let p := (s.hlt.get h).ackParser
    let hunted : List (Nat × Byte) := if data = 0xC3 then [(time, data)] else []
    ∃ t, exec (.headAck h [⟨time, data, framing⟩]) s = .next t ∧
      (framing = true → ackHeld s h time [] t) ∧
      (framing = false → p = [] ∨ lastTime p + 100 < time → ackHeld s h time hunted t) ∧
      (∀ b0, framing = false → p = [b0] → b0.2 = 0xC3 → time ≤ b0.1 + 100 →
        (data = 7 → ackHeld s h time [b0, (time, data)] t) ∧ (data ≠ 7 → ackHeld s h time hunted t)) ∧
      (∀ b0 b1 more, framing = false → p = b0 :: b1 :: more → b0.2 = 0xC3 → b1.2 = 7 → more.length < 4 →
        time ≤ lastTime p + 100 → ackHeld s h time (p ++ [(time, data)]) t) ∧
      (∀ b0 b1 b2 b3 b4 b5 : Nat × Byte, framing = false → p = [b0, b1, b2, b3, b4, b5] → b0.2 = 0xC3 → b1.2 = 7 →
        time ≤ b5.1 + 100 → b0.2 + b1.2 + b2.2 + b3.2 + b4.2 + b5.2 + data ≠ 0 →
        let after := [b1, b2, b3, b4, b5, (time, data)]
        ∃ n, n ≤ 6 ∧ ackHeld s h time (after.drop n) t ∧ ackBegins (after.drop n) ∧
          ∀ m, m < n → ¬ackBegins (after.drop m))) ∧
  (∀ (s : State) (h : Head) (bytes : List RxByte), s.rst.phase ≠ .running → exec (.headAck h bytes) s = .next s) ∧
  (∀ (s : State) (h : Head) (m : Sending), (s.hlt.get h).sending = some m →
    let x := s.hlt.get h
    let left := if m.injected then x.inject - 1 else x.inject
    ∃ t, exec (.messageSent h) s = .next t ∧
      onlyRaises [.hlt] (if m.injected = true ∧ x.inject = 1 then [.injectDone h x.injectLoaded] else []) s t ∧
      (x.queued = [] → t.hlt = s.hlt.set h { x with sending := none, inject := left }) ∧
      (∀ n rest, x.queued = n :: rest → ∃ check injected,
        t.hlt = s.hlt.set h { x with
          sending := some ⟨n.position, n.body ++ [check], injected⟩, queued := rest, inject := left } ∧
        (injected = true ↔ n.position.isSome = true ∧ left ≠ 0) ∧
        (injected = false → byteSum (n.body ++ [check]) = 0) ∧
        (injected = true → byteSum (n.body ++ [~~~check]) = 0))) ∧
  (∀ (s : State) (h : Head), (s.hlt.get h).sending = none → exec (.messageSent h) s = .next s)

/-! ## The bus -/

/-- A presented access is taken at once when none is being carried and initialisation has ended, and stands otherwise: a read
and a write outside the line store go to memory, a write to the report window is dropped and counted. HCS# rising ends the
access that is complete, and withdraws one that is not (R169, R170, R175, R177). An access that stands is taken, by whatever
command the port goes on after, as it would be if it were presented then. What stands at the pins while another access is carried,
and pins that present nothing, are the model's choices (assumption 12), and so are that a command whose row is another may present
a write (assumption 13) and that a presentation waits for the hand-overs of the access before it (assumption 9). -/
def Obligations.AccessTaken : Prop :=
  (∀ (s : State) (ha : WordAddr) (be : Lanes) (hd : Word), readyToTake s →
    ∃ t, exec (.accessPresented ⟨ha, be, hd, false, true⟩) s = .next t ∧ onlyChanges [.ptp] s t ∧
      carriedAs false t ⟨false, ha, be, hd⟩ 0 ∧ t.ptp = { s.ptp with carried := t.ptp.carried, presented := none }) ∧
  (∀ (s : State) (ha : WordAddr) (be : Lanes) (hd : Word),
    exec (.accessPresented ⟨ha, be, hd, false, false⟩) s = .next s) ∧
  (∀ (c : Instr) (a : Access) (s : State), presentsWrite c a → readyToTake s →
    windowOf a.ha.toNat = .control ∨ windowOf a.ha.toNat = .general ∨ a.ha.toNat = consumeWord →
    ∃ t, exec c s = .next t ∧ onlyChanges [.ptp] s t ∧ carriedAs false t a a.be ∧
      t.ptp = { s.ptp with carried := t.ptp.carried, presented := none }) ∧
  (∀ (c : Instr) (a : Access) (s : State), presentsWrite c a → readyToTake s → droppedAccess a.ha = true →
    ∃ t, exec c s = .next t ∧ onlyChanges [.ptp] s t ∧ readyHigh t = true ∧
      t.ptp = { s.ptp with
        carried := some ⟨a, 0, .complete, false⟩, presented := none, dropped := s.ptp.dropped + 1 }) ∧
  (∀ (c : Instr) (a : Access) (s : State), presentsAccess c a → ¬readyToTake s →
    ∃ t, exec c s = .next t ∧ onlyChanges [.ptp] s t ∧ carriedKept s t ∧
      t.ptp = { s.ptp with carried := t.ptp.carried, presented := some a }) ∧
  (∀ (c : Instr) (a : Access) (u : State), presentsAccess c a → u.ptp.presented = some a → readyToTake u →
    exec c u = .next (goOn u)) ∧
  (∀ u : State, ¬readyToTake u ∨ u.ptp.presented = none → goOn u = arbitrate u) ∧
  (∀ (c : Instr) (s : State) (k : Carried), c = .accessWithdrawn ∨ c = .hcsRises → s.ptp.carried = some k →
    ∃ t, exec c s = .next t ∧
      (k.stage = .complete → s.ptp.presented = none ∨ s.rst.phase ≠ .running ∨ s.ptp.handovers ≠ [] →
        onlyChanges [.ptp] s t ∧ t.ptp = { s.ptp with carried := none } ∧ readyHigh t = false) ∧
      (∀ d a, k.stage = .complete → s.ptp.presented = some a → s.rst.phase = .running → s.ptp.handovers = [] →
        presentsAccess d a → exec d (s.withPtp { s.ptp with carried := none, presented := none }) = .next t) ∧
      (k.stage ≠ .complete → k.withdrawn = false → onlyChanges [.ptp] s t ∧
        (t.ptp = { s.ptp with carried := some { k with withdrawn := true } } ∨
          (k.stage = .waiting ∧ t.ptp = { s.ptp with carried := some { k with withdrawn := true, stage := .onPort } }))) ∧
      (k.stage ≠ .complete → k.withdrawn = true → onlyChanges [.ptp] s t ∧ carriedKept s t ∧
        t.ptp = { s.ptp with carried := t.ptp.carried, presented := none })) ∧
  (∀ (c : Instr) (s : State), c = .accessWithdrawn ∨ c = .hcsRises → s.ptp.carried = none →
    ∃ t, exec c s = .next t ∧ onlyChanges [.ptp] s t ∧ t.ptp = { s.ptp with presented := none })

/-- A processor write is performed: memory takes its lanes, the watchers of its window see it, and READY rises, or the access
ends if it has been withdrawn (R31, R153, R161, R169, R170, R172, R186, R204). A processor read is performed: the word returned
is memory's with a hold entry's masked lanes laid over it, READY rises, and the attention word's value is handed on; a withdrawn
read drives nothing and hands nothing on, and ends (R37, R171, R200). One that a master reset left at the port without its
requester does nothing but, for a write, reach memory (R172, R177). The port then goes on to an access that stands presented.
The model's own: what is handed on waits in a queue for the commands that take it (assumption 9), and the freed port is granted
before HCS# can rise (assumption 36). -/
def Obligations.AccessPerformed : Prop :=
  (∀ (s : State) (a : PortAccess) (acc : Access) (l : Lanes) (gone : Bool), MemOk s → s.port.busy = some a →
    a.owner = .processor → a.write = true → a.orphan = false → s.ptp.carried = some ⟨acc, l, .onPort, gone⟩ →
    let guarded := windowOf a.wa = .rundown ∧ (a.wa - rundownBase) % 2 = 1 ∧ a.lanes.getLsbD 0 = true
    ∃ t, leaves .processorWriteDone s t ∧ onlyChanges [.mem, .port, .ptp, .ehu, .hlt] s t ∧
      wordWritten a.wa a.lanes a.data s t ∧ t.port = { s.port with busy := none } ∧
      (gone = false → readyHigh (goOn t) = true) ∧
      (∃ hs, t.ptp = { s.ptp with
          carried := if gone then none else some ⟨acc, l, .complete, false⟩, handovers := s.ptp.handovers ++ hs } ∧
        (∀ c r, windowOf a.wa = .control → controlWordAt (4 * a.wa) = some (.card c r) → hs = [.card c r]) ∧
        (∀ c, windowOf a.wa = .control → controlWordAt (4 * a.wa) = some c → (∀ i r, c ≠ .card i r) →
          hs = [.setting (4 * a.wa) (readWord t.mem a.wa)]) ∧
        (windowOf a.wa = .control → controlWordAt (4 * a.wa) = none → hs = []) ∧
        (a.wa = consumeWord → hs = [.consume (readWord t.mem a.wa)]) ∧
        (windowOf a.wa = .rundown ∨ windowOf a.wa = .general ∨ windowOf a.wa = .line → hs = [])) ∧
      t.ehu = { s.ehu with guardSet := t.ehu.guardSet } ∧
      (guarded → ∀ i, i < 256 → t.ehu.guardSet.getLsbD i =
        if i = (a.wa - rundownBase) / 2 then a.data.getLsbD 1 else s.ehu.guardSet.getLsbD i) ∧
      (¬guarded → t.ehu = s.ehu) ∧
      (windowOf a.wa ≠ .line → t.hlt = s.hlt) ∧
      (windowOf a.wa = .line → ∀ h : Head, let x := s.hlt.get h
        t.hlt.get h = if x.route.source = .live
          then { x with view := x.view.map (fun v => if v.slot = some (slotOf a.wa) then { v with sent := false } else v) }
          else x)) ∧
  (∀ (s : State) (a : PortAccess), MemOk s → s.port.busy = some a → a.owner = .processor → a.write = true →
    a.orphan = true →
    ∃ t, exec .processorWriteDone s = .next t ∧ onlyChanges [.mem, .port] s t ∧ wordWritten a.wa a.lanes a.data s t) ∧
  (∀ (s : State) (a : PortAccess) (acc : Access) (l : Lanes), s.port.busy = some a → a.owner = .processor →
    a.write = false → a.orphan = false →
    (s.ptp.carried = some ⟨acc, l, .onPort, false⟩ →
      ∃ t, leaves .processorReadDone s t ∧ onlyChanges [.port, .ptp] s t ∧ readyHigh (goOn t) = true ∧
        t.port = { s.port with busy := none } ∧ t.ptp = { s.ptp with
          carried := some ⟨acc, l, .complete, false⟩, readData := t.ptp.readData
          handovers := s.ptp.handovers ++ if acc.ha.toNat = attentionWord then [.attention t.ptp.readData] else [] } ∧
        (∀ e ∈ s.ehu.queue, e.wa = a.wa → (∀ e' ∈ s.ehu.queue, e'.wa = a.wa → e' = e) →
          ∀ k, k < 4 → laneOf t.ptp.readData k =
            if e.mask.getLsbD k then laneOf e.data k else readByte s.mem (4 * a.wa + k)) ∧
        ((∀ e ∈ s.ehu.queue, e.wa ≠ a.wa) → t.ptp.readData = readWord s.mem a.wa)) ∧
    (s.ptp.carried = some ⟨acc, l, .onPort, true⟩ →
      ∃ t, leaves .processorReadDone s t ∧ onlyChanges [.port, .ptp] s t ∧ t.port = { s.port with busy := none } ∧
        t.ptp = { s.ptp with carried := none })) ∧
  (∀ (s : State) (a : PortAccess), s.port.busy = some a → a.owner = .processor → a.write = false → a.orphan = true →
    ∃ t, exec .processorReadDone s = .next t ∧ onlyChanges [.port] s t ∧
      t = arbitrate (s.withPort { s.port with busy := none }))

/-- Every command ends in the arbiter's grant of a free port: the processor first, unless a part access has waited through eight
of its grants; the part requesters in cyclic order from the one last granted; nothing while an access is in progress (R173,
R174). A grant of the attention write takes the latch as its data and empties the fresh set (R199). What each requester asks
for: walk reads, row reads, the guard reads and the oldest releasing entry, and the SRU's writes with the values of R183 and
R194 (R10, R38, R154, R160, R193, R203). The model's own: that nothing is granted while what a performed access handed on waits
to be taken (assumption 9), that the fairness count is judged on what the whole command leaves waiting (assumption 32), that an
attention write that waits gives way to a record (assumption 14), that the port freed by an access is granted before HCS# can
rise and the next one be taken (assumption 36), and that the guard reads go through the entries in ascending order (assumption
37). -/
def Obligations.ArbiterGrants : Prop :=
  (∀ s : State,
    (s.port.busy ≠ none ∨ s.ptp.handovers ≠ [] → grant s = s) ∧
    (anyPartWaits s = false → (clearFairness s).port.fairness = 0) ∧
    (s.port.busy = none → s.ptp.handovers = [] →
      (∀ c, processorWaits s = some c → s.port.fairness < 8 ∨ anyPartWaits s = false →
        (grant s).port = {
          busy := some ⟨.processor, c.acc.write, c.acc.ha.toNat, if c.acc.write then c.lanes else 0b1111, c.acc.data, false⟩
          fairness := if anyPartWaits s then s.port.fairness + 1 else s.port.fairness, pointer := s.port.pointer } ∧
        (grant s).ptp = { s.ptp with carried := some { c with stage := .onPort } }) ∧
      (anyPartWaits s = true → 8 ≤ s.port.fairness ∨ processorWaits s = none →
        ∃ r acc, partWaits s r = true ∧ partAccess s r = some acc ∧ (grant s).port = ⟨some acc, 0, r⟩ ∧
          (∀ q, partWaits s q = true → (requesterIndex r + 6 - requesterIndex s.port.pointer) % 7 ≤
            (requesterIndex q + 6 - requesterIndex s.port.pointer) % 7) ∧
          (r = .sru → s.sru.request = some .attention →
            acc = ⟨.part .sru, true, 0x420, 0b1111, s.sru.latch.setWidth 32, false⟩ ∧
            (grant s).sru = { s.sru with fresh := 0, attnReq := false }) ∧
          (r ≠ .sru ∨ s.sru.request ≠ some .attention → (grant s).sru = s.sru)) ∧
      (anyPartWaits s = false → processorWaits s = none → grant s = s))) ∧
  (∀ (c : Instr) (s t : State), exec c s = .next t → t = s ∨ ∃ u : State, t = grant (clearFairness (requestSru u))) ∧
  (∀ u : State, let t := arbitrate u
    t = grant (clearFairness (requestSru u)) ∧ onlyChanges [] u t ∧
    (t.port.busy = none → t.ptp.handovers = [] → processorWaits t = none ∧ anyPartWaits t = false)) ∧
  (∀ s : State, let read (r : Requester) (wa : Nat) : Option PortAccess := some ⟨.part r, false, wa, 0b1111, 0, false⟩
    partAccess s .rwk = (match s.rwk.read with
      | none => none
      | some (.entryWord i) => read .rwk (0x800 + 2 * i)
      | some (.entryFlags i _ _) => read .rwk (0x801 + 2 * i)
      | some (.slotWord _ _ n _) => read .rwk (0x4000 + 32 * n)
      | some (.slotKind _ _ n _ _) => read .rwk (0x4001 + 32 * n)) ∧
    ∀ h : Head, partAccess s (.hlt h) = match (s.hlt.get h).build with
      | none => none
      | some ⟨_, .slot n _ _, .header⟩ => read (.hlt h) (0x4001 + 32 * n)
      | some ⟨_, .slot n _ _, .text _ _ words⟩ => read (.hlt h) (0x4002 + 32 * n + words.length)
      | some ⟨_, .card c r, .header⟩ => read (.hlt h) (0x100 + 0x40 * (c - 1) + 0x10 * r)
      | some ⟨_, .card c r, .text _ _ words⟩ => read (.hlt h) (0x101 + 0x40 * (c - 1) + 0x10 * r + words.length)) ∧
  (∀ s : State, let flagReads := s.rst.phase = .windows ∧ s.rst.guardNext < 256
    (flagReads → partAccess s .ehu = some ⟨.part .ehu, false, 0x801 + 2 * s.rst.guardNext, 0b1111, 0, false⟩) ∧
    (¬flagReads → (∀ e ∈ s.ehu.queue, e.state ≠ .releasing) → partAccess s .ehu = none) ∧
    (∀ older e newer, ¬flagReads → s.ehu.queue = older ++ e :: newer → (∀ o ∈ older, o.state ≠ .releasing) →
      e.state = .releasing → partAccess s .ehu = some ⟨.part .ehu, true, e.wa, e.mask, e.data, false⟩)) ∧
  (∀ s : State, let x := s.sru
    let write (wa : Nat) (w : Word) : Option PortAccess := some ⟨.part .sru, true, wa, 0b1111, w, false⟩
    (x.request = none → partAccess s .sru = none) ∧
    (x.request = some .initWord → partAccess s .sru = write s.rst.initWord (initialWord s.rst.initWord)) ∧
    (x.request = some .record → x.records = [] → partAccess s .sru = none) ∧
    (∀ r rest, x.request = some .record → x.records = r :: rest →
      (x.recordWord < 4 → partAccess s .sru =
        write (0x440 + 4 * (r.num.toNat % 32) + x.recordWord) (recordWordAt r x.recordWord)) ∧
      (4 ≤ x.recordWord → partAccess s .sru = write 0x421 ((r.num + 1).setWidth 32))) ∧
    (x.request = some .attention → partAccess s .sru = write 0x420 (x.latch.setWidth 32)) ∧
    (x.request = some .runResetZero → partAccess s .sru = write 0 0)) ∧
  (let general : List Nat :=
    [0, 40, 1, 2, 30, 48, 8192, 64, 256, 20, 20000, 0, 3, 2, 1, 0, 0, 0xFFF] ++ List.replicate 14 0
  let operator : List Nat := [1, 3, 16, 0, 2, 400, 20, 0] ++
    [0x10001, 0x10002, 0x10003, 0x10004, 0x10005, 0x10006, 0x10007, 0x10000]
  let presenter : List Nat := [0, 3, 16, 1, 2, 400, 30, 0] ++
    [0x10003, 0x20004, 0x20005, 0x10006, 0x10007, 0x20001, 0x20002, 0x10000]
  let curves : List Nat :=
    [0, 40, 96, 160, 240, 340, 460, 600, 760, 940, 1140, 1360, 1600, 1860, 2140, 2440, 2760] ++ List.replicate 15 0 ++
    [0, 20, 48, 80, 120, 170, 230, 300, 380, 470, 570, 680, 800, 930, 1070, 1220, 1380] ++ List.replicate 15 0
  let routes : List Nat := [1, 0, 0, 0].flatMap (fun source => [source, 12, 3, 4096, 10, 0, 0, 0])
  let words := general ++ operator ++ presenter ++ curves ++ routes
  (∀ i, i < 160 → initialWord i = .ofNat 32 (words.getD i 0)) ∧ ∀ i, 160 ≤ i → initialWord i = 0)

/-- The port and what waits for it stay as R174 and R175 allow: no processor write reaches a report-window word but the consume
index, and no part but the SRU writes outside the line store; the fairness count stays within 8 (R173). -/
def Obligations.PortInvariant : Prop :=
  (∀ (c : Instr) (s t : State), HoldOk s → PortOk s → exec c s = .next t → PortOk t) ∧
  (∀ (c : Instr) (s t : State), FairnessOk s → exec c s = .next t → FairnessOk t)

/-! ## Settings, status, events and the run reset -/

/-- A setting with no behaviour of its own is taken, clamped and reported; the guard band recomputes the on-air list and the
near-full threshold is compared at once (R30, R45, R179, R180, R186 to R188, R201). The queue of hand-overs by which the SRU comes to
the word is the model's (assumption 9). -/
def Obligations.SettingsTaken : Prop :=
  (∀ (s : State) (o lo hi : Nat) (w : Word) (rest : List Handover), (o, lo, hi) ∈ plainTable →
    s.ptp.handovers = .setting o w :: rest →
    ∃ t, leaves .settingWrite s t ∧ handoverTaken rest s t ∧ onlyChanges [.ptp, .sru] s t ∧
      t.sru.set = plainPut s.sru.set o (max lo (min hi w.toNat)) ∧
      eventsTaken (clampReport o (max lo (min hi w.toNat)) w) s t) ∧
  (∀ (s : State) (w : Word) (rest : List Handover), s.ptp.handovers = .setting 0x008 w :: rest →
    ∃ t, leaves .settingWrite s t ∧ handoverTaken rest s t ∧ onlyChanges [.ptp, .sru] s t ∧
      t.sru.set = { s.sru.set with editMode := if w = 0 then .pass else if w = 1 then .batch else .shelter } ∧
      eventsTaken (clampReport 0x008 (min 2 w.toNat) w) s t) ∧
  (∀ (s : State) (w : Word) (rest : List Handover), s.ptp.handovers = .setting 0x040 w :: rest →
    let v := max (-32767) (min 32767 w.toInt)
    ∃ t, leaves .settingWrite s t ∧ handoverTaken rest s t ∧ onlyChanges [.ptp, .sru] s t ∧
      t.sru.set = { s.sru.set with autoSpeed := v } ∧
      eventsTaken (if v = w.toInt then [] else [.settingClamped 0x040 (.ofInt 16 v) w]) s t) ∧
  (∀ (s : State) (b : Bool) (k : Nat) (w : Word) (rest : List Handover), k < 17 →
    s.ptp.handovers = .setting ((if b then 0x180 else 0x100) + 4 * k) w :: rest →
    let n := min 32767 w.toNat
    ∃ t, leaves .settingWrite s t ∧ handoverTaken rest s t ∧ onlyChanges [.ptp, .sru] s t ∧
      t.sru.set = (if b then { s.sru.set with curveB := s.sru.set.curveB.set k n }
        else { s.sru.set with curveA := s.sru.set.curveA.set k n }) ∧
      eventsTaken (clampReport ((if b then 0x180 else 0x100) + 4 * k) n w) s t) ∧
  (∀ (s : State) (w : Word) (rest : List Handover), s.ptp.handovers = .setting 0x00C w :: rest →
    let n := min 15 w.toNat
    ∃ t, leaves .guardBandWrite s t ∧ handoverTaken rest s t ∧ onlyChanges [.ptp, .sru, .ehu] s t ∧
      t.sru.set = { s.sru.set with guardBand := n } ∧ eventsTaken (clampReport 0x00C n w) s t ∧
      t.ehu = s.ehu.recompute (onAirList (liveRoutes s.hlt) n s.sce.active.rows (s.sce.pos / 4096))) ∧
  (∀ (s : State) (w : Word) (rest : List Handover), s.ptp.handovers = .setting 0x014 w :: rest →
    let n := max 1 (min 64 w.toNat)
    let count := s.ehu.queue.length
    ∃ t, leaves .nearFullThresholdWrite s t ∧ handoverTaken rest s t ∧ onlyChanges [.ptp, .sru, .ehu] s t ∧
      t.sru.set = { s.sru.set with nearFull := n } ∧ t.ehu = { s.ehu with nearFull := decide (n ≤ count) } ∧
      eventsTaken (clampReport 0x014 n w ++ if n ≤ count ∧ s.ehu.nearFull = false then [.holdNear count n] else []) s t) ∧
  (∀ (s : State) (w : Word) (rest : List Handover), s.ptp.handovers = .setting 0x044 w :: rest →
    let m : BitVec 12 := w.setWidth 12
    ∃ t, leaves .attentionMaskWrite s t ∧ handoverTaken rest s t ∧ onlyChanges [.ptp, .sru] s t ∧
      t.sru.set = { s.sru.set with mask := m } ∧ eventsTaken (clampReport 0x044 m.toNat w) s t) ∧
  (∀ (s : State) (w : Word) (rest : List Handover), s.ptp.handovers = .setting 0x048 w :: rest →
    ∃ t, leaves .interruptEnableWrite s t ∧ handoverTaken rest s t ∧ onlyChanges [.ptp, .sru] s t ∧
      t.sru.set = { s.sru.set with intEnable := w != 0 } ∧ eventsTaken (clampReport 0x048 (if w = 0 then 0 else 1) w) s t)

/-- A route field is taken for the head's next boundary: TEST is demoted to OFF while another head owns it, a row count clamps
the read row it leaves too great, and an inject count is marked as written. A card write marks its row STALE at each head
that shows the card (R144, R146, R161, R164, R181, R187). The word reported for a read row that a row count clamps is an
inference from the spec (assumption 15), and the queue of hand-overs that both commands take from is the model's (assumption
9). -/
def Obligations.RoutesTaken : Prop :=
  (∀ (s : State) (h : Head) (f : RouteField) (w : Word) (rest : List Handover),
    s.ptp.handovers = .setting (routeOffset h f) w :: rest →
    let r := s.sru.set.routes.get h
    let o := routeOffset h f
    let owned := ∃ k, k ≠ h ∧ (s.sru.set.routes.get k).source = .test
    let put (s t : State) (r : Route) (es : List Event) : Prop :=
      t.sru.set = { s.sru.set with routes := s.sru.set.routes.set h r } ∧ eventsTaken es s t
    ∃ t, leaves .routeWrite s t ∧ handoverTaken rest s t ∧ onlyChanges [.ptp, .sru] s t ∧
      (f = .source → w = 5 → owned → put s t { r with source := .off } [.routeDemoted h w]) ∧
      (f = .source → w = 5 → ¬owned → put s t { r with source := .test } []) ∧
      (f = .source → w.toNat < 5 → put s t { r with
        source := [Source.off, .live, .card1, .card2, .card3].getD w.toNat .off } []) ∧
      (f = .source → 5 < w.toNat → put s t { r with source := .off } [.settingClamped o 0 w]) ∧
      (f = .rows → let n := max 4 (min 32 w.toNat)
        (r.readRow ≤ n - 1 → put s t { r with rows := n } (clampReport o n w)) ∧
        (n - 1 < r.readRow → put s t { r with rows := n, readRow := n - 1 } (clampReport o n w ++
          [.settingClamped (routeOffset h .readRow) (.ofNat 16 (n - 1)) (readWord s.mem (routeOffset h .readRow / 4))]))) ∧
      (f = .readRow → let n := min (r.rows - 1) w.toNat; put s t { r with readRow := n } (clampReport o n w)) ∧
      (f = .budget → let n := max 256 (min 16384 w.toNat); put s t { r with budget := n } (clampReport o n w)) ∧
      (f = .stall → let n := max 2 (min 60 w.toNat); put s t { r with stall := n } (clampReport o n w)) ∧
      (f = .mirror → put s t { r with mirror := w != 0 } (clampReport o (if w = 0 then 0 else 1) w)) ∧
      (f = .inject → let n := min 255 w.toNat
        t.sru.set = { s.sru.set with
          routes := s.sru.set.routes.set h { r with inject := n }
          injectWritten := s.sru.set.injectWritten.set h true } ∧ eventsTaken (clampReport o n w) s t)) ∧
  (∀ (s : State) (c r : Nat) (rest : List Handover), s.ptp.handovers = .card c r :: rest →
    ∃ t, leaves .cardWrite s t ∧ handoverTaken rest s t ∧ onlyChanges [.ptp, .hlt] s t ∧
      ∀ h : Head, let x := s.hlt.get h
        (cardOf x.route.source = some c →
          t.hlt.get h = { x with view := (t.hlt.get h).view } ∧ (t.hlt.get h).view.length = x.view.length ∧
          (∀ v, x.view[r]? = some v → (t.hlt.get h).view[r]? = some { v with sent := false }) ∧
          ∀ p, p ≠ r → (t.hlt.get h).view[p]? = x.view[p]?) ∧
        (cardOf x.route.source ≠ some c → t.hlt.get h = x))

/-- The status block: a snapshot taken at the boundary, after the work of the other blocks, replaces a write in progress and
starts again at its first word; a processor read of the block waits while it is being written (R182, R195 to R197). That the
snapshot waits for the other blocks, and that a status word in progress completes for no one, are inferences from the spec
(assumptions 7 and 14). -/
def Obligations.StatusSnapshotTaken : Prop :=
  (∀ s : State, s.ftu.due.sru = true → s.ftu.due.sce = false → (∀ h, s.ftu.due.hlt.get h = false) →
    ∃ t words, exec .statusSnapshot s = .next t ∧ onlyChanges [.ftu, .sru, .port] s t ∧
      sruIs { s.sru with status := some ⟨words, 0⟩ } t ∧
      t.ftu = { s.ftu with due := { s.ftu.due with sru := false } } ∧
      (∀ a, s.port.busy = some a → a.owner = .part .sru → s.sru.request = some .status →
        t.port.busy = some { a with orphan := true }) ∧
      words.length = 32 ∧
      (let sync : Nat := match s.ftu.sync with | .substitute => 0 | .acquiring => 1 | .locked => 2
        words[0]? = some (wordOfHalves s.ftu.frame (.ofNat 16 (sync + 0x100 * s.ftu.goodCount)))) ∧
      words[1]? = some s.ftu.tick ∧ words[2]? = some (.ofNat 32 s.sce.pos) ∧ words[3]? = some (.ofInt 32 s.sce.speed) ∧
      words[4]? = some (wordOfHalves (.ofNat 16 s.sce.active.rows.length) (.ofNat 16 (s.ehu.queue.length +
        (if s.helm.paused then 0x100 else 0) + if s.helm.coast then 0x200 else 0))) ∧
      (let holder : Byte := match s.helm.holder with | none => 0 | some .operator => 1 | some .presenter => 2 | some .auto => 3
        let claimant (c : Claimant) : Byte := match claimState s.helm c with
          | .idle => 0 | .pending => 1 | .holding => 2 | .suspended => 3
        let link (x : Hlr) : Byte := match x.link with | .absent => 0 | .suspect => 1 | .active => 2 | .lost => 3
        let head (x : Hlt) : Byte := match x.state with | .silent => 0 | .up => 1 | .stalled => 2
        let lag (x : Hlt) : Half := match x.state, x.lastAck with
          | .silent, _ => 0 | _, none => 0 | _, some a => s.ftu.frame - a
        words[5]? = some (wordOf holder (claimant .operator) (claimant .presenter) (claimant .auto)) ∧
        words[6]? = some (wordOf (link s.hlr.operator) (link s.hlr.presenter) 0 0) ∧
        words[7]? = some (wordOf (head s.hlt.h0) (head s.hlt.h1) (head s.hlt.h2) (head s.hlt.h3)) ∧
        words[8]? = some (wordOfHalves (lag s.hlt.h0) (lag s.hlt.h1)) ∧
        words[9]? = some (wordOfHalves (lag s.hlt.h2) (lag s.hlt.h3))) ∧
      words.drop 10 = [s.hlr.operator.checkErrors, s.hlr.presenter.checkErrors, s.hlr.operator.seqGaps,
        s.hlr.presenter.seqGaps, s.helm.refused, s.ftu.glitches, s.sce.relinks, s.rwk.discarded, s.ehu.spills,
        s.ehu.expiries, s.ptp.dropped, 0, 0, 0, 0, 0, 0, 0, 0, 0, 0, 0]) ∧
  (∀ (s : State) (k : Carried), s.ptp.carried = some k → k.acc.write = false → 0x400 ≤ k.acc.ha.toNat →
    k.acc.ha.toNat < 0x420 → s.sru.status ≠ none → processorWaits s = none) ∧
  (∀ (s : State) (x : StatusWrite), s.sru.request = some .status → s.sru.status = some x →
    partAccess s .sru = some ⟨.part .sru, true, 0x400 + x.next, 0b1111, x.words.getD x.next 0, false⟩)

/-- An event is recorded with its number, frame and time when the ring has room; its group's bit is set and enters the fresh set
either way, and without room the OVERFLOW bit too. IRQ# is low exactly while the enable is 1 and a masked bit is set
(R198, R199, R201, R202). Each event has its code, its group and its parameters in the record (R183, R198). The value a read of the
attention word returned clears the latch bits it showed, but for the groups raised since it was taken, and a cleared bit requests an
attention write (R200); the queue of hand-overs by which the SRU comes to the value is the model's (assumption 9). -/
def Obligations.EventsAndAttention : Prop :=
  (∀ (s : State) (e : Event), let t := raise s e
    t = s.withSru t.sru ∧ t.sru = { s.sru with
      latch := t.sru.latch, fresh := t.sru.fresh, attnReq := t.sru.attnReq
      records := t.sru.records, produce := t.sru.produce } ∧
    ((s.sru.produce - s.sru.consume).toNat < 32 →
      t.sru.records = s.sru.records ++ [⟨s.sru.produce, e, s.ftu.frame, s.ftu.tick⟩] ∧
      t.sru.produce = s.sru.produce + 1 ∧
      ∀ g, g < 12 → t.sru.latch.getLsbD g = (s.sru.latch.getLsbD g || g == eventGroup e) ∧
        t.sru.fresh.getLsbD g = (s.sru.fresh.getLsbD g || g == eventGroup e)) ∧
    (32 ≤ (s.sru.produce - s.sru.consume).toNat →
      t.sru.records = s.sru.records ∧ t.sru.produce = s.sru.produce ∧
      ∀ g, g < 12 → t.sru.latch.getLsbD g = (s.sru.latch.getLsbD g || g == eventGroup e || g == 11) ∧
        t.sru.fresh.getLsbD g = (s.sru.fresh.getLsbD g || g == eventGroup e || g == 11)) ∧
    (t.sru.latch ≠ s.sru.latch → t.sru.attnReq = true) ∧ (t.sru.latch = s.sru.latch → t.sru.attnReq = s.sru.attnReq)) ∧
  (∀ s : State, irqLow s = true ↔
    s.sru.set.intEnable = true ∧ ∃ g, g < 12 ∧ s.sru.latch.getLsbD g = true ∧ s.sru.set.mask.getLsbD g = true) ∧
  (let n (x : Nat) : Half := .ofNat 16 x
  let w (x : Nat) : Word := .ofNat 32 x
  let link (l : Link) : Half := match l with | .operator => 1 | .presenter => 2
  let holder (c : Option Claimant) : Half := match c with
    | none => 0 | some .operator => 1 | some .presenter => 2 | some .auto => 3
  (∀ c, recordIs (.reset c) 1 10 (match c with | .power => 0 | .pin => 1 | .run => 2) 0 0) ∧
  (∀ rows stories faults discards, recordIs (.relinkDone rows stories faults discards) 2 0 (n rows) (n stories)
    (wordOfHalves (n faults) (n discards))) ∧
  (∀ story entry, recordIs (.dupStory story entry) 3 0 (n story) (n entry) 0) ∧
  (∀ story slot c, recordIs (.linkFault story slot c) 4 0 (n story) (n slot)
    (match c with | .badIndex => 0 | .revisit => 1 | .foreign => 2)) ∧
  (∀ story entry slot, recordIs (.mapFull story entry slot) 5 0 (n story) (n entry) (w slot)) ∧
  (∀ old found index, recordIs (.anchorMoved old found index) 6 1 (n old) (n found) (w index)) ∧
  (∀ old row, recordIs (.anchorLost old row) 7 1 (n old) (n row) 0) ∧
  (∀ slot owner frame, recordIs (.markLost slot owner frame) 8 2 (n slot) (link owner) (frame.setWidth 32)) ∧
  (∀ slot owner frame, recordIs (.markDropped slot owner frame) 9 2 (n slot) (link owner) (frame.setWidth 32)) ∧
  (∀ old new c, recordIs (.helmChange old new c) 10 3 (holder old) (holder new) (match c with
    | .claim => 0 | .level => 1 | .mode => 2 | .release => 3 | .linkLost => 4 | .autoOff => 5 | .runReset => 6)) ∧
  (∀ l st, recordIs (.linkState l st) 11 4 (link l)
    (match st with | .absent => 0 | .suspect => 1 | .active => 2 | .lost => 3) 0) ∧
  (∀ row slot story, recordIs (.stopReached row slot story) 12 5 (n row) (n slot) (w story)) ∧
  (∀ slot v, recordIs (.topStop slot v) 13 5 (n slot) 0 (.ofInt 32 v)) ∧
  (∀ slot v, recordIs (.endStop slot v) 14 5 (n slot) 0 (.ofInt 32 v)) ∧
  (∀ remaining row threshold, recordIs (.runout remaining row threshold) 15 9 (n remaining) (n row) (w threshold)) ∧
  (∀ slot count, recordIs (.holdSpill slot count) 16 6 (n slot) (n count) 0) ∧
  (∀ slot count, recordIs (.holdExpired slot count) 17 6 (n slot) (n count) 0) ∧
  (∀ count threshold, recordIs (.holdNear count threshold) 18 6 (n count) (n threshold) 0) ∧
  (∀ o effective written, recordIs (.settingClamped o effective written) 19 10 (n o) effective written) ∧
  (∀ st nominal period, recordIs (.syncState st nominal period) 20 7
    (match st with | .substitute => 0 | .acquiring => 1 | .locked => 2) (n nominal) (w period)) ∧
  (∀ h st lag, recordIs (.headState h st lag) 21 8 (match h with | .h0 => 0 | .h1 => 1 | .h2 => 2 | .h3 => 3)
    (match st with | .silent => 0 | .up => 1 | .stalled => 2) (w lag)) ∧
  (∀ h written, recordIs (.routeDemoted h written) 22 10 (match h with | .h0 => 0 | .h1 => 1 | .h2 => 2 | .h3 => 3) 0
    written) ∧
  (∀ h count, recordIs (.injectDone h count) 23 8 (match h with | .h0 => 0 | .h1 => 1 | .h2 => 2 | .h3 => 3) (n count) 0)) ∧
  (∀ (s : State) (w : Word) (rest : List Handover), s.ptp.handovers = .attention w :: rest →
    ∃ t latch req, leaves .attentionRead s t ∧ onlyChanges [.ptp, .sru] s t ∧ handoverTaken rest s t ∧
      sruIs { s.sru with latch := latch, attnReq := req } t ∧
      (∀ g, g < 12 → latch.getLsbD g = (s.sru.latch.getLsbD g && !(w.getLsbD g && !s.sru.fresh.getLsbD g))) ∧
      (latch ≠ s.sru.latch → req = true) ∧ (latch = s.sru.latch → req = s.sru.attnReq))

/-- The consume index taken: byte 0 of the word when it lies at most 32 behind produce, and produce itself otherwise; memory and
everything else keep what they had, and no event is raised (R204). The queue of hand-overs by which the SRU comes to the
written word is the model's (assumption 9). -/
def Obligations.ConsumeTaken : Prop :=
  ∀ (s : State) (w : Word) (rest : List Handover), s.ptp.handovers = .consume w :: rest →
    let c : Byte := w.setWidth 8
    ∃ t, leaves .consumeWrite s t ∧ onlyChanges [.ptp, .sru] s t ∧ handoverTaken rest s t ∧
      ((s.sru.produce - c).toNat ≤ 32 → sruIs { s.sru with consume := c } t) ∧
      (32 < (s.sru.produce - c).toNat → sruIs { s.sru with consume := s.sru.produce } t)

/-- A run reset starts on a 1 in state IDLE and on nothing else: the position, the marks and the request are cleared, the walk
starts afresh, a walk read in progress being abandoned and the rest of the port kept, every entry is put to release, the helm is
freed and the views are stale. With nothing held, or when the last release is performed, RESET is raised and the write of 0
prepared (R21, R43, R71, R124, R167, R189 to R191). A share of HELM that comes late is taken with the frame step, after it
(R71). The model's choices: the shares are taken in one step, HELM's apart when it comes late (assumption 21); the word waits in
the queue of hand-overs (assumption 9); and an end given with nothing due changes nothing (assumption 3). That a full stale is
remembered for the following boundary is an inference from the spec (assumption 30). -/
def Obligations.RunResetShares : Prop :=
  (∀ (s : State) (late : Bool) (w : Word) (rest : List Handover), s.ptp.handovers = .setting 0 w :: rest →
    w ≠ 1 ∨ s.sru.runState = .running →
    ∃ t, leaves (.runReset late) s t ∧ onlyChanges [.ptp] s t ∧ handoverTaken rest s t) ∧
  (∀ (s : State) (late : Bool) (rest : List Handover), RunOk s → s.ptp.handovers = .setting 0 1 :: rest →
    s.sru.runState = .idle →
    let later := late = true ∧ s.ftu.due.sce = true
    let freed : List Event := match s.helm.holder with | some h => [.helmChange (some h) none .runReset] | none => []
    ∃ t, leaves (.runReset late) s t ∧ handoverTaken rest s t ∧
      onlyChanges [.ptp, .port, .rwk, .ehu, .sce, .hlt, .helm, .hlr, .sru] s t ∧
      t.sce = { s.sce with pos := 0, speed := 0, jump := none, marks := [], runoutFlag := false, stopReached := none } ∧
      t.port = { s.port with
        busy := s.port.busy.map (fun a => if a.owner = .part .rwk then { a with orphan := true } else a) } ∧
      t.rwk = { s.rwk with
        phase := .walking, rewalk := false, mapStale := true, settle := .stopped, discards := 0, seen := 0
        bank := ⟨[], 0, 0, 0⟩, read := some (.entryWord 0) } ∧
      t.ehu = { s.ehu with queue := s.ehu.queue.map (fun e => { e with state := .releasing }) } ∧
      (∀ h : Head, t.hlt.get h = { s.hlt.get h with
        view := (s.hlt.get h).view.map (fun v => { v with sent := false }), staleDue := true }) ∧
      t.sru.runState = .running ∧ t.sru.resetLeft = s.ehu.queue.length ∧ t.sru.set = s.sru.set ∧
      (t.sru.zeroDue = true ↔ s.ehu.queue = [] ∧ ¬later) ∧
      (later → t.helm = s.helm ∧ t.hlr = s.hlr ∧ t.sru.helmShare = true) ∧
      (¬later → (∀ c, claimState t.helm c = .idle) ∧ t.helm.paused = false ∧ t.helm.coast = false ∧
        t.helm.staged = ⟨[], []⟩) ∧
      (¬later → s.helm.staged = ⟨[], []⟩ → t.hlr = s.hlr ∧
        t.helm = { s.helm with holder := none, stack := [], waiting := [], paused := false, coast := false, cleared := false } ∧
        sruIs { (acceptAll s.sru t (freed ++ if s.ehu.queue = [] then [.reset .run] else [])) with
          runState := .running, resetLeft := s.ehu.queue.length, zeroDue := s.ehu.queue.isEmpty } t)) ∧
  (∀ s : State, s.sru.helmShare = true → s.ftu.due.sce = true → s.ftu.due.helm = false → s.ftu.due.ehu = false →
    let before := s.withSru { s.sru with helmShare := false }
    let freed : List Event := match s.helm.holder with | some h => [.helmChange (some h) none .runReset] | none => []
    ∃ t u es, exec .frameStep s = .next t ∧ exec .frameStep before = .next u ∧
      onlyRaises [.sce, .ftu, .rwk, .ehu, .helm] es before u ∧
      onlyChanges [.sce, .ftu, .rwk, .ehu, .helm, .hlr, .sru] s t ∧
      t.sce = u.sce ∧ t.ftu = u.ftu ∧ t.rwk = u.rwk ∧ t.ehu = u.ehu ∧ t.sru.helmShare = false ∧ t.sru.set = s.sru.set ∧
      (∀ c, claimState t.helm c = .idle) ∧ t.helm.paused = false ∧ t.helm.coast = false ∧ t.helm.staged = ⟨[], []⟩ ∧
      (s.helm.staged = ⟨[], []⟩ → t.hlr = s.hlr ∧
        t.helm = { u.helm with holder := none, stack := [], waiting := [], paused := false, coast := false, cleared := false } ∧
        sruIs { (acceptAll s.sru t (es ++ freed)) with helmShare := false } t)) ∧
  (∀ s : State, s.sru.runState = .running → s.sru.resetLeft = 0 → s.sru.helmShare = false → s.sru.zeroDue = false →
    ∃ t, exec .runResetDone s = .next t ∧ onlyChanges [.sru] s t ∧
      sruIs { (acceptAll s.sru t [.reset .run]) with zeroDue := true } t) ∧
  (∀ s : State, s.sru.runState = .idle ∨ s.sru.resetLeft ≠ 0 ∨ s.sru.zeroDue = true → exec .runResetDone s = .next s)

/-- Every command keeps the working settings within their ranges with at most one head on TEST, the ring within 32 records of
the consume copy with its waiting records in order, the fresh set within the latch, and nothing of a run reset in state IDLE
(R144, R146, R179 to R181, R189, R190, R199, R202). -/
def Obligations.SettingsAndRingInvariant : Prop :=
  (∀ (c : Instr) (s t : State), SettingsOk s → exec c s = .next t → SettingsOk t) ∧
  (∀ (c : Instr) (s t : State), RingOk s → exec c s = .next t → RingOk t) ∧
  (∀ (c : Instr) (s t : State), FreshOk s → exec c s = .next t → FreshOk t) ∧
  (∀ (c : Instr) (s t : State), RunOk s → exec c s = .next t → RunOk t)

/-- Once initialisation has made its first attention write, memory's attention word is the latch whenever no attention write is
requested or in progress, and the one in progress carries it (R198, R199, R203). -/
def Obligations.AttentionInvariant : Prop :=
  ∀ (c : Instr) (s t : State), MemOk s → HoldOk s → PortOk s → AttentionOk s → exec c s = .next t → AttentionOk t
end

