-- ==== Sys2Proof/Laws/State.lean ====
section
/-! SUPPORT. What each update of one block changes and leaves alone, one lemma per field per update. -/

namespace Sys2Proof.Machine

@[simp] theorem State.withPending_pending (s : State) (x : List Instr) : (s.withPending x).pending = x := rfl
@[simp] theorem State.withPending_mem (s : State) (x : List Instr) : (s.withPending x).mem = s.mem := rfl
@[simp] theorem State.withPending_rst (s : State) (x : List Instr) : (s.withPending x).rst = s.rst := rfl
@[simp] theorem State.withPending_ptp (s : State) (x : List Instr) : (s.withPending x).ptp = s.ptp := rfl
@[simp] theorem State.withPending_port (s : State) (x : List Instr) : (s.withPending x).port = s.port := rfl
@[simp] theorem State.withPending_rwk (s : State) (x : List Instr) : (s.withPending x).rwk = s.rwk := rfl
@[simp] theorem State.withPending_ehu (s : State) (x : List Instr) : (s.withPending x).ehu = s.ehu := rfl
@[simp] theorem State.withPending_sce (s : State) (x : List Instr) : (s.withPending x).sce = s.sce := rfl
@[simp] theorem State.withPending_hlr (s : State) (x : List Instr) : (s.withPending x).hlr = s.hlr := rfl
@[simp] theorem State.withPending_helm (s : State) (x : List Instr) : (s.withPending x).helm = s.helm := rfl
@[simp] theorem State.withPending_ftu (s : State) (x : List Instr) : (s.withPending x).ftu = s.ftu := rfl
@[simp] theorem State.withPending_hlt (s : State) (x : List Instr) : (s.withPending x).hlt = s.hlt := rfl
@[simp] theorem State.withPending_sru (s : State) (x : List Instr) : (s.withPending x).sru = s.sru := rfl

@[simp] theorem State.withMem_pending (s : State) (x : Memory) : (s.withMem x).pending = s.pending := rfl
@[simp] theorem State.withMem_mem (s : State) (x : Memory) : (s.withMem x).mem = x := rfl
@[simp] theorem State.withMem_rst (s : State) (x : Memory) : (s.withMem x).rst = s.rst := rfl
@[simp] theorem State.withMem_ptp (s : State) (x : Memory) : (s.withMem x).ptp = s.ptp := rfl
@[simp] theorem State.withMem_port (s : State) (x : Memory) : (s.withMem x).port = s.port := rfl
@[simp] theorem State.withMem_rwk (s : State) (x : Memory) : (s.withMem x).rwk = s.rwk := rfl
@[simp] theorem State.withMem_ehu (s : State) (x : Memory) : (s.withMem x).ehu = s.ehu := rfl
@[simp] theorem State.withMem_sce (s : State) (x : Memory) : (s.withMem x).sce = s.sce := rfl
@[simp] theorem State.withMem_hlr (s : State) (x : Memory) : (s.withMem x).hlr = s.hlr := rfl
@[simp] theorem State.withMem_helm (s : State) (x : Memory) : (s.withMem x).helm = s.helm := rfl
@[simp] theorem State.withMem_ftu (s : State) (x : Memory) : (s.withMem x).ftu = s.ftu := rfl
@[simp] theorem State.withMem_hlt (s : State) (x : Memory) : (s.withMem x).hlt = s.hlt := rfl
@[simp] theorem State.withMem_sru (s : State) (x : Memory) : (s.withMem x).sru = s.sru := rfl

@[simp] theorem State.withRst_pending (s : State) (x : Rst) : (s.withRst x).pending = s.pending := rfl
@[simp] theorem State.withRst_mem (s : State) (x : Rst) : (s.withRst x).mem = s.mem := rfl
@[simp] theorem State.withRst_rst (s : State) (x : Rst) : (s.withRst x).rst = x := rfl
@[simp] theorem State.withRst_ptp (s : State) (x : Rst) : (s.withRst x).ptp = s.ptp := rfl
@[simp] theorem State.withRst_port (s : State) (x : Rst) : (s.withRst x).port = s.port := rfl
@[simp] theorem State.withRst_rwk (s : State) (x : Rst) : (s.withRst x).rwk = s.rwk := rfl
@[simp] theorem State.withRst_ehu (s : State) (x : Rst) : (s.withRst x).ehu = s.ehu := rfl
@[simp] theorem State.withRst_sce (s : State) (x : Rst) : (s.withRst x).sce = s.sce := rfl
@[simp] theorem State.withRst_hlr (s : State) (x : Rst) : (s.withRst x).hlr = s.hlr := rfl
@[simp] theorem State.withRst_helm (s : State) (x : Rst) : (s.withRst x).helm = s.helm := rfl
@[simp] theorem State.withRst_ftu (s : State) (x : Rst) : (s.withRst x).ftu = s.ftu := rfl
@[simp] theorem State.withRst_hlt (s : State) (x : Rst) : (s.withRst x).hlt = s.hlt := rfl
@[simp] theorem State.withRst_sru (s : State) (x : Rst) : (s.withRst x).sru = s.sru := rfl

@[simp] theorem State.withPtp_pending (s : State) (x : Ptp) : (s.withPtp x).pending = s.pending := rfl
@[simp] theorem State.withPtp_mem (s : State) (x : Ptp) : (s.withPtp x).mem = s.mem := rfl
@[simp] theorem State.withPtp_rst (s : State) (x : Ptp) : (s.withPtp x).rst = s.rst := rfl
@[simp] theorem State.withPtp_ptp (s : State) (x : Ptp) : (s.withPtp x).ptp = x := rfl
@[simp] theorem State.withPtp_port (s : State) (x : Ptp) : (s.withPtp x).port = s.port := rfl
@[simp] theorem State.withPtp_rwk (s : State) (x : Ptp) : (s.withPtp x).rwk = s.rwk := rfl
@[simp] theorem State.withPtp_ehu (s : State) (x : Ptp) : (s.withPtp x).ehu = s.ehu := rfl
@[simp] theorem State.withPtp_sce (s : State) (x : Ptp) : (s.withPtp x).sce = s.sce := rfl
@[simp] theorem State.withPtp_hlr (s : State) (x : Ptp) : (s.withPtp x).hlr = s.hlr := rfl
@[simp] theorem State.withPtp_helm (s : State) (x : Ptp) : (s.withPtp x).helm = s.helm := rfl
@[simp] theorem State.withPtp_ftu (s : State) (x : Ptp) : (s.withPtp x).ftu = s.ftu := rfl
@[simp] theorem State.withPtp_hlt (s : State) (x : Ptp) : (s.withPtp x).hlt = s.hlt := rfl
@[simp] theorem State.withPtp_sru (s : State) (x : Ptp) : (s.withPtp x).sru = s.sru := rfl

@[simp] theorem State.withPort_pending (s : State) (x : Port) : (s.withPort x).pending = s.pending := rfl
@[simp] theorem State.withPort_mem (s : State) (x : Port) : (s.withPort x).mem = s.mem := rfl
@[simp] theorem State.withPort_rst (s : State) (x : Port) : (s.withPort x).rst = s.rst := rfl
@[simp] theorem State.withPort_ptp (s : State) (x : Port) : (s.withPort x).ptp = s.ptp := rfl
@[simp] theorem State.withPort_port (s : State) (x : Port) : (s.withPort x).port = x := rfl
@[simp] theorem State.withPort_rwk (s : State) (x : Port) : (s.withPort x).rwk = s.rwk := rfl
@[simp] theorem State.withPort_ehu (s : State) (x : Port) : (s.withPort x).ehu = s.ehu := rfl
@[simp] theorem State.withPort_sce (s : State) (x : Port) : (s.withPort x).sce = s.sce := rfl
@[simp] theorem State.withPort_hlr (s : State) (x : Port) : (s.withPort x).hlr = s.hlr := rfl
@[simp] theorem State.withPort_helm (s : State) (x : Port) : (s.withPort x).helm = s.helm := rfl
@[simp] theorem State.withPort_ftu (s : State) (x : Port) : (s.withPort x).ftu = s.ftu := rfl
@[simp] theorem State.withPort_hlt (s : State) (x : Port) : (s.withPort x).hlt = s.hlt := rfl
@[simp] theorem State.withPort_sru (s : State) (x : Port) : (s.withPort x).sru = s.sru := rfl

@[simp] theorem State.withRwk_pending (s : State) (x : Walker) : (s.withRwk x).pending = s.pending := rfl
@[simp] theorem State.withRwk_mem (s : State) (x : Walker) : (s.withRwk x).mem = s.mem := rfl
@[simp] theorem State.withRwk_rst (s : State) (x : Walker) : (s.withRwk x).rst = s.rst := rfl
@[simp] theorem State.withRwk_ptp (s : State) (x : Walker) : (s.withRwk x).ptp = s.ptp := rfl
@[simp] theorem State.withRwk_port (s : State) (x : Walker) : (s.withRwk x).port = s.port := rfl
@[simp] theorem State.withRwk_rwk (s : State) (x : Walker) : (s.withRwk x).rwk = x := rfl
@[simp] theorem State.withRwk_ehu (s : State) (x : Walker) : (s.withRwk x).ehu = s.ehu := rfl
@[simp] theorem State.withRwk_sce (s : State) (x : Walker) : (s.withRwk x).sce = s.sce := rfl
@[simp] theorem State.withRwk_hlr (s : State) (x : Walker) : (s.withRwk x).hlr = s.hlr := rfl
@[simp] theorem State.withRwk_helm (s : State) (x : Walker) : (s.withRwk x).helm = s.helm := rfl
@[simp] theorem State.withRwk_ftu (s : State) (x : Walker) : (s.withRwk x).ftu = s.ftu := rfl
@[simp] theorem State.withRwk_hlt (s : State) (x : Walker) : (s.withRwk x).hlt = s.hlt := rfl
@[simp] theorem State.withRwk_sru (s : State) (x : Walker) : (s.withRwk x).sru = s.sru := rfl

@[simp] theorem State.withEhu_pending (s : State) (x : Ehu) : (s.withEhu x).pending = s.pending := rfl
@[simp] theorem State.withEhu_mem (s : State) (x : Ehu) : (s.withEhu x).mem = s.mem := rfl
@[simp] theorem State.withEhu_rst (s : State) (x : Ehu) : (s.withEhu x).rst = s.rst := rfl
@[simp] theorem State.withEhu_ptp (s : State) (x : Ehu) : (s.withEhu x).ptp = s.ptp := rfl
@[simp] theorem State.withEhu_port (s : State) (x : Ehu) : (s.withEhu x).port = s.port := rfl
@[simp] theorem State.withEhu_rwk (s : State) (x : Ehu) : (s.withEhu x).rwk = s.rwk := rfl
@[simp] theorem State.withEhu_ehu (s : State) (x : Ehu) : (s.withEhu x).ehu = x := rfl
@[simp] theorem State.withEhu_sce (s : State) (x : Ehu) : (s.withEhu x).sce = s.sce := rfl
@[simp] theorem State.withEhu_hlr (s : State) (x : Ehu) : (s.withEhu x).hlr = s.hlr := rfl
@[simp] theorem State.withEhu_helm (s : State) (x : Ehu) : (s.withEhu x).helm = s.helm := rfl
@[simp] theorem State.withEhu_ftu (s : State) (x : Ehu) : (s.withEhu x).ftu = s.ftu := rfl
@[simp] theorem State.withEhu_hlt (s : State) (x : Ehu) : (s.withEhu x).hlt = s.hlt := rfl
@[simp] theorem State.withEhu_sru (s : State) (x : Ehu) : (s.withEhu x).sru = s.sru := rfl

@[simp] theorem State.withSce_pending (s : State) (x : Sce) : (s.withSce x).pending = s.pending := rfl
@[simp] theorem State.withSce_mem (s : State) (x : Sce) : (s.withSce x).mem = s.mem := rfl
@[simp] theorem State.withSce_rst (s : State) (x : Sce) : (s.withSce x).rst = s.rst := rfl
@[simp] theorem State.withSce_ptp (s : State) (x : Sce) : (s.withSce x).ptp = s.ptp := rfl
@[simp] theorem State.withSce_port (s : State) (x : Sce) : (s.withSce x).port = s.port := rfl
@[simp] theorem State.withSce_rwk (s : State) (x : Sce) : (s.withSce x).rwk = s.rwk := rfl
@[simp] theorem State.withSce_ehu (s : State) (x : Sce) : (s.withSce x).ehu = s.ehu := rfl
@[simp] theorem State.withSce_sce (s : State) (x : Sce) : (s.withSce x).sce = x := rfl
@[simp] theorem State.withSce_hlr (s : State) (x : Sce) : (s.withSce x).hlr = s.hlr := rfl
@[simp] theorem State.withSce_helm (s : State) (x : Sce) : (s.withSce x).helm = s.helm := rfl
@[simp] theorem State.withSce_ftu (s : State) (x : Sce) : (s.withSce x).ftu = s.ftu := rfl
@[simp] theorem State.withSce_hlt (s : State) (x : Sce) : (s.withSce x).hlt = s.hlt := rfl
@[simp] theorem State.withSce_sru (s : State) (x : Sce) : (s.withSce x).sru = s.sru := rfl

@[simp] theorem State.withHlr_pending (s : State) (x : Pair Hlr) : (s.withHlr x).pending = s.pending := rfl
@[simp] theorem State.withHlr_mem (s : State) (x : Pair Hlr) : (s.withHlr x).mem = s.mem := rfl
@[simp] theorem State.withHlr_rst (s : State) (x : Pair Hlr) : (s.withHlr x).rst = s.rst := rfl
@[simp] theorem State.withHlr_ptp (s : State) (x : Pair Hlr) : (s.withHlr x).ptp = s.ptp := rfl
@[simp] theorem State.withHlr_port (s : State) (x : Pair Hlr) : (s.withHlr x).port = s.port := rfl
@[simp] theorem State.withHlr_rwk (s : State) (x : Pair Hlr) : (s.withHlr x).rwk = s.rwk := rfl
@[simp] theorem State.withHlr_ehu (s : State) (x : Pair Hlr) : (s.withHlr x).ehu = s.ehu := rfl
@[simp] theorem State.withHlr_sce (s : State) (x : Pair Hlr) : (s.withHlr x).sce = s.sce := rfl
@[simp] theorem State.withHlr_hlr (s : State) (x : Pair Hlr) : (s.withHlr x).hlr = x := rfl
@[simp] theorem State.withHlr_helm (s : State) (x : Pair Hlr) : (s.withHlr x).helm = s.helm := rfl
@[simp] theorem State.withHlr_ftu (s : State) (x : Pair Hlr) : (s.withHlr x).ftu = s.ftu := rfl
@[simp] theorem State.withHlr_hlt (s : State) (x : Pair Hlr) : (s.withHlr x).hlt = s.hlt := rfl
@[simp] theorem State.withHlr_sru (s : State) (x : Pair Hlr) : (s.withHlr x).sru = s.sru := rfl

@[simp] theorem State.withHelm_pending (s : State) (x : Helm) : (s.withHelm x).pending = s.pending := rfl
@[simp] theorem State.withHelm_mem (s : State) (x : Helm) : (s.withHelm x).mem = s.mem := rfl
@[simp] theorem State.withHelm_rst (s : State) (x : Helm) : (s.withHelm x).rst = s.rst := rfl
@[simp] theorem State.withHelm_ptp (s : State) (x : Helm) : (s.withHelm x).ptp = s.ptp := rfl
@[simp] theorem State.withHelm_port (s : State) (x : Helm) : (s.withHelm x).port = s.port := rfl
@[simp] theorem State.withHelm_rwk (s : State) (x : Helm) : (s.withHelm x).rwk = s.rwk := rfl
@[simp] theorem State.withHelm_ehu (s : State) (x : Helm) : (s.withHelm x).ehu = s.ehu := rfl
@[simp] theorem State.withHelm_sce (s : State) (x : Helm) : (s.withHelm x).sce = s.sce := rfl
@[simp] theorem State.withHelm_hlr (s : State) (x : Helm) : (s.withHelm x).hlr = s.hlr := rfl
@[simp] theorem State.withHelm_helm (s : State) (x : Helm) : (s.withHelm x).helm = x := rfl
@[simp] theorem State.withHelm_ftu (s : State) (x : Helm) : (s.withHelm x).ftu = s.ftu := rfl
@[simp] theorem State.withHelm_hlt (s : State) (x : Helm) : (s.withHelm x).hlt = s.hlt := rfl
@[simp] theorem State.withHelm_sru (s : State) (x : Helm) : (s.withHelm x).sru = s.sru := rfl

@[simp] theorem State.withFtu_pending (s : State) (x : Ftu) : (s.withFtu x).pending = s.pending := rfl
@[simp] theorem State.withFtu_mem (s : State) (x : Ftu) : (s.withFtu x).mem = s.mem := rfl
@[simp] theorem State.withFtu_rst (s : State) (x : Ftu) : (s.withFtu x).rst = s.rst := rfl
@[simp] theorem State.withFtu_ptp (s : State) (x : Ftu) : (s.withFtu x).ptp = s.ptp := rfl
@[simp] theorem State.withFtu_port (s : State) (x : Ftu) : (s.withFtu x).port = s.port := rfl
@[simp] theorem State.withFtu_rwk (s : State) (x : Ftu) : (s.withFtu x).rwk = s.rwk := rfl
@[simp] theorem State.withFtu_ehu (s : State) (x : Ftu) : (s.withFtu x).ehu = s.ehu := rfl
@[simp] theorem State.withFtu_sce (s : State) (x : Ftu) : (s.withFtu x).sce = s.sce := rfl
@[simp] theorem State.withFtu_hlr (s : State) (x : Ftu) : (s.withFtu x).hlr = s.hlr := rfl
@[simp] theorem State.withFtu_helm (s : State) (x : Ftu) : (s.withFtu x).helm = s.helm := rfl
@[simp] theorem State.withFtu_ftu (s : State) (x : Ftu) : (s.withFtu x).ftu = x := rfl
@[simp] theorem State.withFtu_hlt (s : State) (x : Ftu) : (s.withFtu x).hlt = s.hlt := rfl
@[simp] theorem State.withFtu_sru (s : State) (x : Ftu) : (s.withFtu x).sru = s.sru := rfl

@[simp] theorem State.withHlt_pending (s : State) (x : Quad Hlt) : (s.withHlt x).pending = s.pending := rfl
@[simp] theorem State.withHlt_mem (s : State) (x : Quad Hlt) : (s.withHlt x).mem = s.mem := rfl
@[simp] theorem State.withHlt_rst (s : State) (x : Quad Hlt) : (s.withHlt x).rst = s.rst := rfl
@[simp] theorem State.withHlt_ptp (s : State) (x : Quad Hlt) : (s.withHlt x).ptp = s.ptp := rfl
@[simp] theorem State.withHlt_port (s : State) (x : Quad Hlt) : (s.withHlt x).port = s.port := rfl
@[simp] theorem State.withHlt_rwk (s : State) (x : Quad Hlt) : (s.withHlt x).rwk = s.rwk := rfl
@[simp] theorem State.withHlt_ehu (s : State) (x : Quad Hlt) : (s.withHlt x).ehu = s.ehu := rfl
@[simp] theorem State.withHlt_sce (s : State) (x : Quad Hlt) : (s.withHlt x).sce = s.sce := rfl
@[simp] theorem State.withHlt_hlr (s : State) (x : Quad Hlt) : (s.withHlt x).hlr = s.hlr := rfl
@[simp] theorem State.withHlt_helm (s : State) (x : Quad Hlt) : (s.withHlt x).helm = s.helm := rfl
@[simp] theorem State.withHlt_ftu (s : State) (x : Quad Hlt) : (s.withHlt x).ftu = s.ftu := rfl
@[simp] theorem State.withHlt_hlt (s : State) (x : Quad Hlt) : (s.withHlt x).hlt = x := rfl
@[simp] theorem State.withHlt_sru (s : State) (x : Quad Hlt) : (s.withHlt x).sru = s.sru := rfl

@[simp] theorem State.withSru_pending (s : State) (x : Sru) : (s.withSru x).pending = s.pending := rfl
@[simp] theorem State.withSru_mem (s : State) (x : Sru) : (s.withSru x).mem = s.mem := rfl
@[simp] theorem State.withSru_rst (s : State) (x : Sru) : (s.withSru x).rst = s.rst := rfl
@[simp] theorem State.withSru_ptp (s : State) (x : Sru) : (s.withSru x).ptp = s.ptp := rfl
@[simp] theorem State.withSru_port (s : State) (x : Sru) : (s.withSru x).port = s.port := rfl
@[simp] theorem State.withSru_rwk (s : State) (x : Sru) : (s.withSru x).rwk = s.rwk := rfl
@[simp] theorem State.withSru_ehu (s : State) (x : Sru) : (s.withSru x).ehu = s.ehu := rfl
@[simp] theorem State.withSru_sce (s : State) (x : Sru) : (s.withSru x).sce = s.sce := rfl
@[simp] theorem State.withSru_hlr (s : State) (x : Sru) : (s.withSru x).hlr = s.hlr := rfl
@[simp] theorem State.withSru_helm (s : State) (x : Sru) : (s.withSru x).helm = s.helm := rfl
@[simp] theorem State.withSru_ftu (s : State) (x : Sru) : (s.withSru x).ftu = s.ftu := rfl
@[simp] theorem State.withSru_hlt (s : State) (x : Sru) : (s.withSru x).hlt = s.hlt := rfl
@[simp] theorem State.withSru_sru (s : State) (x : Sru) : (s.withSru x).sru = x := rfl

@[simp] theorem State.withLink_pending (s : State) (l : Link) (x : Hlr) : (s.withLink l x).pending = s.pending := rfl
@[simp] theorem State.withLink_mem (s : State) (l : Link) (x : Hlr) : (s.withLink l x).mem = s.mem := rfl
@[simp] theorem State.withLink_rst (s : State) (l : Link) (x : Hlr) : (s.withLink l x).rst = s.rst := rfl
@[simp] theorem State.withLink_ptp (s : State) (l : Link) (x : Hlr) : (s.withLink l x).ptp = s.ptp := rfl
@[simp] theorem State.withLink_port (s : State) (l : Link) (x : Hlr) : (s.withLink l x).port = s.port := rfl
@[simp] theorem State.withLink_rwk (s : State) (l : Link) (x : Hlr) : (s.withLink l x).rwk = s.rwk := rfl
@[simp] theorem State.withLink_ehu (s : State) (l : Link) (x : Hlr) : (s.withLink l x).ehu = s.ehu := rfl
@[simp] theorem State.withLink_sce (s : State) (l : Link) (x : Hlr) : (s.withLink l x).sce = s.sce := rfl
@[simp] theorem State.withLink_hlr (s : State) (l : Link) (x : Hlr) : (s.withLink l x).hlr = s.hlr.set l x := rfl
@[simp] theorem State.withLink_helm (s : State) (l : Link) (x : Hlr) : (s.withLink l x).helm = s.helm := rfl
@[simp] theorem State.withLink_ftu (s : State) (l : Link) (x : Hlr) : (s.withLink l x).ftu = s.ftu := rfl
@[simp] theorem State.withLink_hlt (s : State) (l : Link) (x : Hlr) : (s.withLink l x).hlt = s.hlt := rfl
@[simp] theorem State.withLink_sru (s : State) (l : Link) (x : Hlr) : (s.withLink l x).sru = s.sru := rfl

@[simp] theorem State.withHead_pending (s : State) (h : Head) (x : Hlt) : (s.withHead h x).pending = s.pending := rfl
@[simp] theorem State.withHead_mem (s : State) (h : Head) (x : Hlt) : (s.withHead h x).mem = s.mem := rfl
@[simp] theorem State.withHead_rst (s : State) (h : Head) (x : Hlt) : (s.withHead h x).rst = s.rst := rfl
@[simp] theorem State.withHead_ptp (s : State) (h : Head) (x : Hlt) : (s.withHead h x).ptp = s.ptp := rfl
@[simp] theorem State.withHead_port (s : State) (h : Head) (x : Hlt) : (s.withHead h x).port = s.port := rfl
@[simp] theorem State.withHead_rwk (s : State) (h : Head) (x : Hlt) : (s.withHead h x).rwk = s.rwk := rfl
@[simp] theorem State.withHead_ehu (s : State) (h : Head) (x : Hlt) : (s.withHead h x).ehu = s.ehu := rfl
@[simp] theorem State.withHead_sce (s : State) (h : Head) (x : Hlt) : (s.withHead h x).sce = s.sce := rfl
@[simp] theorem State.withHead_hlr (s : State) (h : Head) (x : Hlt) : (s.withHead h x).hlr = s.hlr := rfl
@[simp] theorem State.withHead_helm (s : State) (h : Head) (x : Hlt) : (s.withHead h x).helm = s.helm := rfl
@[simp] theorem State.withHead_ftu (s : State) (h : Head) (x : Hlt) : (s.withHead h x).ftu = s.ftu := rfl
@[simp] theorem State.withHead_hlt (s : State) (h : Head) (x : Hlt) : (s.withHead h x).hlt = s.hlt.set h x := rfl
@[simp] theorem State.withHead_sru (s : State) (h : Head) (x : Hlt) : (s.withHead h x).sru = s.sru := rfl

@[simp] theorem Pair.get_set {α : Type} (p : Pair α) (l : Link) (x : α) : (p.set l x).get l = x := by
  cases l <;> rfl

@[simp] theorem Quad.get_set {α : Type} (q : Quad α) (h : Head) (x : α) : (q.set h x).get h = x := by
  cases h <;> rfl

theorem Pair.get_set_ne {α : Type} (p : Pair α) {l k : Link} (x : α) (h : k ≠ l) : (p.set l x).get k = p.get k := by
  cases l <;> cases k <;> first | rfl | exact absurd rfl h

theorem Quad.get_set_ne {α : Type} (q : Quad α) {h k : Head} (x : α) (e : k ≠ h) : (q.set h x).get k = q.get k := by
  cases h <;> cases k <;> first | rfl | exact absurd rfl e

end Sys2Proof.Machine
end

