-- ==== Sys2Proof/Laws/Ops.lean ====
section
/-! SUPPORT. What the shared operations leave alone, and what each can do, said once. -/

namespace Sys2Proof.Machine

/-! ## Raising an event (R202) -/

@[simp] theorem raise_pending (s : State) (e : Event) : (raise s e).pending = s.pending := rfl
@[simp] theorem raise_mem (s : State) (e : Event) : (raise s e).mem = s.mem := rfl
@[simp] theorem raise_rst (s : State) (e : Event) : (raise s e).rst = s.rst := rfl
@[simp] theorem raise_ptp (s : State) (e : Event) : (raise s e).ptp = s.ptp := rfl
@[simp] theorem raise_port (s : State) (e : Event) : (raise s e).port = s.port := rfl
@[simp] theorem raise_rwk (s : State) (e : Event) : (raise s e).rwk = s.rwk := rfl
@[simp] theorem raise_ehu (s : State) (e : Event) : (raise s e).ehu = s.ehu := rfl
@[simp] theorem raise_sce (s : State) (e : Event) : (raise s e).sce = s.sce := rfl
@[simp] theorem raise_hlr (s : State) (e : Event) : (raise s e).hlr = s.hlr := rfl
@[simp] theorem raise_helm (s : State) (e : Event) : (raise s e).helm = s.helm := rfl
@[simp] theorem raise_ftu (s : State) (e : Event) : (raise s e).ftu = s.ftu := rfl
@[simp] theorem raise_hlt (s : State) (e : Event) : (raise s e).hlt = s.hlt := rfl

@[simp] theorem raise_sru (s : State) (e : Event) : (raise s e).sru = s.sru.accept e s.ftu.frame s.ftu.tick := rfl

@[simp] theorem raiseAll_pending (s : State) (es : List Event) : (raiseAll s es).pending = s.pending := by
  induction es generalizing s with
  | nil => rfl
  | cons e rest ih => exact ih (raise s e)

@[simp] theorem raiseAll_mem (s : State) (es : List Event) : (raiseAll s es).mem = s.mem := by
  induction es generalizing s with
  | nil => rfl
  | cons e rest ih => exact ih (raise s e)

@[simp] theorem raiseAll_rst (s : State) (es : List Event) : (raiseAll s es).rst = s.rst := by
  induction es generalizing s with
  | nil => rfl
  | cons e rest ih => exact ih (raise s e)

@[simp] theorem raiseAll_ptp (s : State) (es : List Event) : (raiseAll s es).ptp = s.ptp := by
  induction es generalizing s with
  | nil => rfl
  | cons e rest ih => exact ih (raise s e)

@[simp] theorem raiseAll_port (s : State) (es : List Event) : (raiseAll s es).port = s.port := by
  induction es generalizing s with
  | nil => rfl
  | cons e rest ih => exact ih (raise s e)

@[simp] theorem raiseAll_rwk (s : State) (es : List Event) : (raiseAll s es).rwk = s.rwk := by
  induction es generalizing s with
  | nil => rfl
  | cons e rest ih => exact ih (raise s e)

@[simp] theorem raiseAll_ehu (s : State) (es : List Event) : (raiseAll s es).ehu = s.ehu := by
  induction es generalizing s with
  | nil => rfl
  | cons e rest ih => exact ih (raise s e)

@[simp] theorem raiseAll_sce (s : State) (es : List Event) : (raiseAll s es).sce = s.sce := by
  induction es generalizing s with
  | nil => rfl
  | cons e rest ih => exact ih (raise s e)

@[simp] theorem raiseAll_hlr (s : State) (es : List Event) : (raiseAll s es).hlr = s.hlr := by
  induction es generalizing s with
  | nil => rfl
  | cons e rest ih => exact ih (raise s e)

@[simp] theorem raiseAll_helm (s : State) (es : List Event) : (raiseAll s es).helm = s.helm := by
  induction es generalizing s with
  | nil => rfl
  | cons e rest ih => exact ih (raise s e)

@[simp] theorem raiseAll_ftu (s : State) (es : List Event) : (raiseAll s es).ftu = s.ftu := by
  induction es generalizing s with
  | nil => rfl
  | cons e rest ih => exact ih (raise s e)

@[simp] theorem raiseAll_hlt (s : State) (es : List Event) : (raiseAll s es).hlt = s.hlt := by
  induction es generalizing s with
  | nil => rfl
  | cons e rest ih => exact ih (raise s e)

@[simp] theorem raiseAll_nil (s : State) : raiseAll s [] = s := rfl
@[simp] theorem raiseAll_cons (s : State) (e : Event) (es : List Event) : raiseAll s (e :: es) = raiseAll (raise s e) es := rfl

@[simp] theorem Sru.accept_set (x : Sru) (e : Event) (fr : Half) (t : Word) : (x.accept e fr t).set = x.set := rfl
@[simp] theorem Sru.accept_recordWord (x : Sru) (e : Event) (fr : Half) (t : Word) : (x.accept e fr t).recordWord = x.recordWord := rfl
@[simp] theorem Sru.accept_status (x : Sru) (e : Event) (fr : Half) (t : Word) : (x.accept e fr t).status = x.status := rfl
@[simp] theorem Sru.accept_request (x : Sru) (e : Event) (fr : Half) (t : Word) : (x.accept e fr t).request = x.request := rfl
@[simp] theorem Sru.accept_runState (x : Sru) (e : Event) (fr : Half) (t : Word) : (x.accept e fr t).runState = x.runState := rfl
@[simp] theorem Sru.accept_resetLeft (x : Sru) (e : Event) (fr : Half) (t : Word) : (x.accept e fr t).resetLeft = x.resetLeft := rfl
@[simp] theorem Sru.accept_helmShare (x : Sru) (e : Event) (fr : Half) (t : Word) : (x.accept e fr t).helmShare = x.helmShare := rfl
@[simp] theorem Sru.accept_zeroDue (x : Sru) (e : Event) (fr : Half) (t : Word) : (x.accept e fr t).zeroDue = x.zeroDue := rfl
@[simp] theorem Sru.accept_consume (x : Sru) (e : Event) (fr : Half) (t : Word) : (x.accept e fr t).consume = x.consume := rfl

@[simp] theorem raiseAll_sru_set (s : State) (es : List Event) : (raiseAll s es).sru.set = s.sru.set := by
  induction es generalizing s with
  | nil => rfl
  | cons e rest ih => exact ih (raise s e)

@[simp] theorem raiseAll_sru_recordWord (s : State) (es : List Event) : (raiseAll s es).sru.recordWord = s.sru.recordWord := by
  induction es generalizing s with
  | nil => rfl
  | cons e rest ih => exact ih (raise s e)

@[simp] theorem raiseAll_sru_status (s : State) (es : List Event) : (raiseAll s es).sru.status = s.sru.status := by
  induction es generalizing s with
  | nil => rfl
  | cons e rest ih => exact ih (raise s e)

@[simp] theorem raiseAll_sru_request (s : State) (es : List Event) : (raiseAll s es).sru.request = s.sru.request := by
  induction es generalizing s with
  | nil => rfl
  | cons e rest ih => exact ih (raise s e)

@[simp] theorem raiseAll_sru_runState (s : State) (es : List Event) : (raiseAll s es).sru.runState = s.sru.runState := by
  induction es generalizing s with
  | nil => rfl
  | cons e rest ih => exact ih (raise s e)

@[simp] theorem raiseAll_sru_resetLeft (s : State) (es : List Event) : (raiseAll s es).sru.resetLeft = s.sru.resetLeft := by
  induction es generalizing s with
  | nil => rfl
  | cons e rest ih => exact ih (raise s e)

@[simp] theorem raiseAll_sru_helmShare (s : State) (es : List Event) : (raiseAll s es).sru.helmShare = s.sru.helmShare := by
  induction es generalizing s with
  | nil => rfl
  | cons e rest ih => exact ih (raise s e)

@[simp] theorem raiseAll_sru_zeroDue (s : State) (es : List Event) : (raiseAll s es).sru.zeroDue = s.sru.zeroDue := by
  induction es generalizing s with
  | nil => rfl
  | cons e rest ih => exact ih (raise s e)

@[simp] theorem raiseAll_sru_consume (s : State) (es : List Event) : (raiseAll s es).sru.consume = s.sru.consume := by
  induction es generalizing s with
  | nil => rfl
  | cons e rest ih => exact ih (raise s e)

/-! ## The arbiter (R173) -/

@[simp] theorem requestSru_pending (s : State) : (requestSru s).pending = s.pending := by
  unfold requestSru; split <;> rfl
@[simp] theorem requestSru_mem (s : State) : (requestSru s).mem = s.mem := by
  unfold requestSru; split <;> rfl
@[simp] theorem requestSru_rst (s : State) : (requestSru s).rst = s.rst := by
  unfold requestSru; split <;> rfl
@[simp] theorem requestSru_rwk (s : State) : (requestSru s).rwk = s.rwk := by
  unfold requestSru; split <;> rfl
@[simp] theorem requestSru_ehu (s : State) : (requestSru s).ehu = s.ehu := by
  unfold requestSru; split <;> rfl
@[simp] theorem requestSru_sce (s : State) : (requestSru s).sce = s.sce := by
  unfold requestSru; split <;> rfl
@[simp] theorem requestSru_hlr (s : State) : (requestSru s).hlr = s.hlr := by
  unfold requestSru; split <;> rfl
@[simp] theorem requestSru_helm (s : State) : (requestSru s).helm = s.helm := by
  unfold requestSru; split <;> rfl
@[simp] theorem requestSru_ftu (s : State) : (requestSru s).ftu = s.ftu := by
  unfold requestSru; split <;> rfl
@[simp] theorem requestSru_hlt (s : State) : (requestSru s).hlt = s.hlt := by
  unfold requestSru; split <;> rfl
@[simp] theorem requestSru_ptp (s : State) : (requestSru s).ptp = s.ptp := by
  unfold requestSru; split <;> rfl
@[simp] theorem requestSru_port (s : State) : (requestSru s).port = s.port := by
  unfold requestSru; split <;> rfl
@[simp] theorem requestSru_sru_set (s : State) : (requestSru s).sru.set = s.sru.set := by
  unfold requestSru; split <;> rfl
@[simp] theorem requestSru_sru_latch (s : State) : (requestSru s).sru.latch = s.sru.latch := by
  unfold requestSru; split <;> rfl
@[simp] theorem requestSru_sru_fresh (s : State) : (requestSru s).sru.fresh = s.sru.fresh := by
  unfold requestSru; split <;> rfl
@[simp] theorem requestSru_sru_attnReq (s : State) : (requestSru s).sru.attnReq = s.sru.attnReq := by
  unfold requestSru; split <;> rfl
@[simp] theorem requestSru_sru_produce (s : State) : (requestSru s).sru.produce = s.sru.produce := by
  unfold requestSru; split <;> rfl
@[simp] theorem requestSru_sru_consume (s : State) : (requestSru s).sru.consume = s.sru.consume := by
  unfold requestSru; split <;> rfl
@[simp] theorem requestSru_sru_records (s : State) : (requestSru s).sru.records = s.sru.records := by
  unfold requestSru; split <;> rfl
@[simp] theorem requestSru_sru_recordWord (s : State) : (requestSru s).sru.recordWord = s.sru.recordWord := by
  unfold requestSru; split <;> rfl
@[simp] theorem requestSru_sru_status (s : State) : (requestSru s).sru.status = s.sru.status := by
  unfold requestSru; split <;> rfl
@[simp] theorem requestSru_sru_runState (s : State) : (requestSru s).sru.runState = s.sru.runState := by
  unfold requestSru; split <;> rfl
@[simp] theorem requestSru_sru_resetLeft (s : State) : (requestSru s).sru.resetLeft = s.sru.resetLeft := by
  unfold requestSru; split <;> rfl
@[simp] theorem requestSru_sru_helmShare (s : State) : (requestSru s).sru.helmShare = s.sru.helmShare := by
  unfold requestSru; split <;> rfl
@[simp] theorem requestSru_sru_zeroDue (s : State) : (requestSru s).sru.zeroDue = s.sru.zeroDue := by
  unfold requestSru; split <;> rfl

@[simp] theorem clearFairness_pending (s : State) : (clearFairness s).pending = s.pending := by
  unfold clearFairness; split <;> rfl
@[simp] theorem clearFairness_mem (s : State) : (clearFairness s).mem = s.mem := by
  unfold clearFairness; split <;> rfl
@[simp] theorem clearFairness_rst (s : State) : (clearFairness s).rst = s.rst := by
  unfold clearFairness; split <;> rfl
@[simp] theorem clearFairness_rwk (s : State) : (clearFairness s).rwk = s.rwk := by
  unfold clearFairness; split <;> rfl
@[simp] theorem clearFairness_ehu (s : State) : (clearFairness s).ehu = s.ehu := by
  unfold clearFairness; split <;> rfl
@[simp] theorem clearFairness_sce (s : State) : (clearFairness s).sce = s.sce := by
  unfold clearFairness; split <;> rfl
@[simp] theorem clearFairness_hlr (s : State) : (clearFairness s).hlr = s.hlr := by
  unfold clearFairness; split <;> rfl
@[simp] theorem clearFairness_helm (s : State) : (clearFairness s).helm = s.helm := by
  unfold clearFairness; split <;> rfl
@[simp] theorem clearFairness_ftu (s : State) : (clearFairness s).ftu = s.ftu := by
  unfold clearFairness; split <;> rfl
@[simp] theorem clearFairness_hlt (s : State) : (clearFairness s).hlt = s.hlt := by
  unfold clearFairness; split <;> rfl
@[simp] theorem clearFairness_ptp (s : State) : (clearFairness s).ptp = s.ptp := by
  unfold clearFairness; split <;> rfl
@[simp] theorem clearFairness_sru (s : State) : (clearFairness s).sru = s.sru := by
  unfold clearFairness; split <;> rfl
@[simp] theorem clearFairness_port_busy (s : State) : (clearFairness s).port.busy = s.port.busy := by
  unfold clearFairness; split <;> rfl

@[simp] theorem grantPart_pending (s : State) : (grantPart s).pending = s.pending := by
  unfold grantPart; split
  · rfl
  · split
    · rfl
    · dsimp only; split <;> rfl
@[simp] theorem grantPart_mem (s : State) : (grantPart s).mem = s.mem := by
  unfold grantPart; split
  · rfl
  · split
    · rfl
    · dsimp only; split <;> rfl
@[simp] theorem grantPart_rst (s : State) : (grantPart s).rst = s.rst := by
  unfold grantPart; split
  · rfl
  · split
    · rfl
    · dsimp only; split <;> rfl
@[simp] theorem grantPart_rwk (s : State) : (grantPart s).rwk = s.rwk := by
  unfold grantPart; split
  · rfl
  · split
    · rfl
    · dsimp only; split <;> rfl
@[simp] theorem grantPart_ehu (s : State) : (grantPart s).ehu = s.ehu := by
  unfold grantPart; split
  · rfl
  · split
    · rfl
    · dsimp only; split <;> rfl
@[simp] theorem grantPart_sce (s : State) : (grantPart s).sce = s.sce := by
  unfold grantPart; split
  · rfl
  · split
    · rfl
    · dsimp only; split <;> rfl
@[simp] theorem grantPart_hlr (s : State) : (grantPart s).hlr = s.hlr := by
  unfold grantPart; split
  · rfl
  · split
    · rfl
    · dsimp only; split <;> rfl
@[simp] theorem grantPart_helm (s : State) : (grantPart s).helm = s.helm := by
  unfold grantPart; split
  · rfl
  · split
    · rfl
    · dsimp only; split <;> rfl
@[simp] theorem grantPart_ftu (s : State) : (grantPart s).ftu = s.ftu := by
  unfold grantPart; split
  · rfl
  · split
    · rfl
    · dsimp only; split <;> rfl
@[simp] theorem grantPart_hlt (s : State) : (grantPart s).hlt = s.hlt := by
  unfold grantPart; split
  · rfl
  · split
    · rfl
    · dsimp only; split <;> rfl
@[simp] theorem grantPart_ptp (s : State) : (grantPart s).ptp = s.ptp := by
  unfold grantPart; split
  · rfl
  · split
    · rfl
    · dsimp only; split <;> rfl
@[simp] theorem grantPart_sru_set (s : State) : (grantPart s).sru.set = s.sru.set := by
  unfold grantPart; split
  · rfl
  · split
    · rfl
    · dsimp only; split <;> rfl
@[simp] theorem grantPart_sru_latch (s : State) : (grantPart s).sru.latch = s.sru.latch := by
  unfold grantPart; split
  · rfl
  · split
    · rfl
    · dsimp only; split <;> rfl
@[simp] theorem grantPart_sru_produce (s : State) : (grantPart s).sru.produce = s.sru.produce := by
  unfold grantPart; split
  · rfl
  · split
    · rfl
    · dsimp only; split <;> rfl
@[simp] theorem grantPart_sru_consume (s : State) : (grantPart s).sru.consume = s.sru.consume := by
  unfold grantPart; split
  · rfl
  · split
    · rfl
    · dsimp only; split <;> rfl
@[simp] theorem grantPart_sru_records (s : State) : (grantPart s).sru.records = s.sru.records := by
  unfold grantPart; split
  · rfl
  · split
    · rfl
    · dsimp only; split <;> rfl
@[simp] theorem grantPart_sru_recordWord (s : State) : (grantPart s).sru.recordWord = s.sru.recordWord := by
  unfold grantPart; split
  · rfl
  · split
    · rfl
    · dsimp only; split <;> rfl
@[simp] theorem grantPart_sru_status (s : State) : (grantPart s).sru.status = s.sru.status := by
  unfold grantPart; split
  · rfl
  · split
    · rfl
    · dsimp only; split <;> rfl
@[simp] theorem grantPart_sru_runState (s : State) : (grantPart s).sru.runState = s.sru.runState := by
  unfold grantPart; split
  · rfl
  · split
    · rfl
    · dsimp only; split <;> rfl
@[simp] theorem grantPart_sru_resetLeft (s : State) : (grantPart s).sru.resetLeft = s.sru.resetLeft := by
  unfold grantPart; split
  · rfl
  · split
    · rfl
    · dsimp only; split <;> rfl
@[simp] theorem grantPart_sru_helmShare (s : State) : (grantPart s).sru.helmShare = s.sru.helmShare := by
  unfold grantPart; split
  · rfl
  · split
    · rfl
    · dsimp only; split <;> rfl
@[simp] theorem grantPart_sru_zeroDue (s : State) : (grantPart s).sru.zeroDue = s.sru.zeroDue := by
  unfold grantPart; split
  · rfl
  · split
    · rfl
    · dsimp only; split <;> rfl
@[simp] theorem grantPart_sru_request (s : State) : (grantPart s).sru.request = s.sru.request := by
  unfold grantPart; split
  · rfl
  · split
    · rfl
    · dsimp only; split <;> rfl

@[simp] theorem grantProcessor_pending (s : State) (c : Carried) : (grantProcessor s c).pending = s.pending := rfl
@[simp] theorem grantProcessor_mem (s : State) (c : Carried) : (grantProcessor s c).mem = s.mem := rfl
@[simp] theorem grantProcessor_rst (s : State) (c : Carried) : (grantProcessor s c).rst = s.rst := rfl
@[simp] theorem grantProcessor_rwk (s : State) (c : Carried) : (grantProcessor s c).rwk = s.rwk := rfl
@[simp] theorem grantProcessor_ehu (s : State) (c : Carried) : (grantProcessor s c).ehu = s.ehu := rfl
@[simp] theorem grantProcessor_sce (s : State) (c : Carried) : (grantProcessor s c).sce = s.sce := rfl
@[simp] theorem grantProcessor_hlr (s : State) (c : Carried) : (grantProcessor s c).hlr = s.hlr := rfl
@[simp] theorem grantProcessor_helm (s : State) (c : Carried) : (grantProcessor s c).helm = s.helm := rfl
@[simp] theorem grantProcessor_ftu (s : State) (c : Carried) : (grantProcessor s c).ftu = s.ftu := rfl
@[simp] theorem grantProcessor_hlt (s : State) (c : Carried) : (grantProcessor s c).hlt = s.hlt := rfl
@[simp] theorem grantProcessor_sru (s : State) (c : Carried) : (grantProcessor s c).sru = s.sru := rfl
@[simp] theorem grantProcessor_ptp_presented (s : State) (c : Carried) : (grantProcessor s c).ptp.presented = s.ptp.presented := rfl
@[simp] theorem grantProcessor_ptp_readData (s : State) (c : Carried) : (grantProcessor s c).ptp.readData = s.ptp.readData := rfl
@[simp] theorem grantProcessor_ptp_dropped (s : State) (c : Carried) : (grantProcessor s c).ptp.dropped = s.ptp.dropped := rfl
@[simp] theorem grantProcessor_ptp_handovers (s : State) (c : Carried) : (grantProcessor s c).ptp.handovers = s.ptp.handovers := rfl

/-- All a grant can do: nothing, grant the part access that comes next, or grant the processor's (R173). -/
theorem grant_cases (s : State) :
    grant s = s ∨ (s.port.busy = none ∧ s.ptp.handovers = [] ∧
      (grant s = grantPart s ∨ ∃ c, processorWaits s = some c ∧ grant s = grantProcessor s c)) := by
  unfold grant
  split
  · exact .inl rfl
  · next h =>
    simp only [Bool.or_eq_true, Bool.not_eq_true', not_or, Bool.not_eq_true, Option.isSome_eq_false_iff, Option.isNone_iff_eq_none,
      Bool.not_eq_false, List.isEmpty_iff] at h
    refine .inr ⟨h.1, h.2, ?_⟩
    split
    · exact .inl rfl
    · split
      · next c hc => exact .inr ⟨c, hc, rfl⟩
      · exact .inl rfl

@[simp] theorem grant_pending (s : State) : (grant s).pending = s.pending := by
  rcases grant_cases s with h | ⟨-, -, h | ⟨c, -, h⟩⟩ <;> simp [h]
@[simp] theorem grant_mem (s : State) : (grant s).mem = s.mem := by
  rcases grant_cases s with h | ⟨-, -, h | ⟨c, -, h⟩⟩ <;> simp [h]
@[simp] theorem grant_rst (s : State) : (grant s).rst = s.rst := by
  rcases grant_cases s with h | ⟨-, -, h | ⟨c, -, h⟩⟩ <;> simp [h]
@[simp] theorem grant_rwk (s : State) : (grant s).rwk = s.rwk := by
  rcases grant_cases s with h | ⟨-, -, h | ⟨c, -, h⟩⟩ <;> simp [h]
@[simp] theorem grant_ehu (s : State) : (grant s).ehu = s.ehu := by
  rcases grant_cases s with h | ⟨-, -, h | ⟨c, -, h⟩⟩ <;> simp [h]
@[simp] theorem grant_sce (s : State) : (grant s).sce = s.sce := by
  rcases grant_cases s with h | ⟨-, -, h | ⟨c, -, h⟩⟩ <;> simp [h]
@[simp] theorem grant_hlr (s : State) : (grant s).hlr = s.hlr := by
  rcases grant_cases s with h | ⟨-, -, h | ⟨c, -, h⟩⟩ <;> simp [h]
@[simp] theorem grant_helm (s : State) : (grant s).helm = s.helm := by
  rcases grant_cases s with h | ⟨-, -, h | ⟨c, -, h⟩⟩ <;> simp [h]
@[simp] theorem grant_ftu (s : State) : (grant s).ftu = s.ftu := by
  rcases grant_cases s with h | ⟨-, -, h | ⟨c, -, h⟩⟩ <;> simp [h]
@[simp] theorem grant_hlt (s : State) : (grant s).hlt = s.hlt := by
  rcases grant_cases s with h | ⟨-, -, h | ⟨c, -, h⟩⟩ <;> simp [h]
@[simp] theorem grant_sru_set (s : State) : (grant s).sru.set = s.sru.set := by
  rcases grant_cases s with h | ⟨-, -, h | ⟨c, -, h⟩⟩ <;> simp [h]
@[simp] theorem grant_sru_latch (s : State) : (grant s).sru.latch = s.sru.latch := by
  rcases grant_cases s with h | ⟨-, -, h | ⟨c, -, h⟩⟩ <;> simp [h]
@[simp] theorem grant_sru_produce (s : State) : (grant s).sru.produce = s.sru.produce := by
  rcases grant_cases s with h | ⟨-, -, h | ⟨c, -, h⟩⟩ <;> simp [h]
@[simp] theorem grant_sru_consume (s : State) : (grant s).sru.consume = s.sru.consume := by
  rcases grant_cases s with h | ⟨-, -, h | ⟨c, -, h⟩⟩ <;> simp [h]
@[simp] theorem grant_sru_records (s : State) : (grant s).sru.records = s.sru.records := by
  rcases grant_cases s with h | ⟨-, -, h | ⟨c, -, h⟩⟩ <;> simp [h]
@[simp] theorem grant_sru_recordWord (s : State) : (grant s).sru.recordWord = s.sru.recordWord := by
  rcases grant_cases s with h | ⟨-, -, h | ⟨c, -, h⟩⟩ <;> simp [h]
@[simp] theorem grant_sru_status (s : State) : (grant s).sru.status = s.sru.status := by
  rcases grant_cases s with h | ⟨-, -, h | ⟨c, -, h⟩⟩ <;> simp [h]
@[simp] theorem grant_sru_runState (s : State) : (grant s).sru.runState = s.sru.runState := by
  rcases grant_cases s with h | ⟨-, -, h | ⟨c, -, h⟩⟩ <;> simp [h]
@[simp] theorem grant_sru_resetLeft (s : State) : (grant s).sru.resetLeft = s.sru.resetLeft := by
  rcases grant_cases s with h | ⟨-, -, h | ⟨c, -, h⟩⟩ <;> simp [h]
@[simp] theorem grant_sru_helmShare (s : State) : (grant s).sru.helmShare = s.sru.helmShare := by
  rcases grant_cases s with h | ⟨-, -, h | ⟨c, -, h⟩⟩ <;> simp [h]
@[simp] theorem grant_sru_zeroDue (s : State) : (grant s).sru.zeroDue = s.sru.zeroDue := by
  rcases grant_cases s with h | ⟨-, -, h | ⟨c, -, h⟩⟩ <;> simp [h]
@[simp] theorem grant_sru_request (s : State) : (grant s).sru.request = s.sru.request := by
  rcases grant_cases s with h | ⟨-, -, h | ⟨c, -, h⟩⟩ <;> simp [h]
@[simp] theorem grant_ptp_presented (s : State) : (grant s).ptp.presented = s.ptp.presented := by
  rcases grant_cases s with h | ⟨-, -, h | ⟨c, -, h⟩⟩ <;> simp [h]
@[simp] theorem grant_ptp_readData (s : State) : (grant s).ptp.readData = s.ptp.readData := by
  rcases grant_cases s with h | ⟨-, -, h | ⟨c, -, h⟩⟩ <;> simp [h]
@[simp] theorem grant_ptp_dropped (s : State) : (grant s).ptp.dropped = s.ptp.dropped := by
  rcases grant_cases s with h | ⟨-, -, h | ⟨c, -, h⟩⟩ <;> simp [h]
@[simp] theorem grant_ptp_handovers (s : State) : (grant s).ptp.handovers = s.ptp.handovers := by
  rcases grant_cases s with h | ⟨-, -, h | ⟨c, -, h⟩⟩ <;> simp [h]

@[simp] theorem arbitrate_pending (s : State) : (arbitrate s).pending = s.pending := by simp [arbitrate]
@[simp] theorem arbitrate_mem (s : State) : (arbitrate s).mem = s.mem := by simp [arbitrate]
@[simp] theorem arbitrate_rst (s : State) : (arbitrate s).rst = s.rst := by simp [arbitrate]
@[simp] theorem arbitrate_rwk (s : State) : (arbitrate s).rwk = s.rwk := by simp [arbitrate]
@[simp] theorem arbitrate_ehu (s : State) : (arbitrate s).ehu = s.ehu := by simp [arbitrate]
@[simp] theorem arbitrate_sce (s : State) : (arbitrate s).sce = s.sce := by simp [arbitrate]
@[simp] theorem arbitrate_hlr (s : State) : (arbitrate s).hlr = s.hlr := by simp [arbitrate]
@[simp] theorem arbitrate_helm (s : State) : (arbitrate s).helm = s.helm := by simp [arbitrate]
@[simp] theorem arbitrate_ftu (s : State) : (arbitrate s).ftu = s.ftu := by simp [arbitrate]
@[simp] theorem arbitrate_hlt (s : State) : (arbitrate s).hlt = s.hlt := by simp [arbitrate]
@[simp] theorem arbitrate_sru_set (s : State) : (arbitrate s).sru.set = s.sru.set := by simp [arbitrate]
@[simp] theorem arbitrate_sru_latch (s : State) : (arbitrate s).sru.latch = s.sru.latch := by simp [arbitrate]
@[simp] theorem arbitrate_sru_produce (s : State) : (arbitrate s).sru.produce = s.sru.produce := by simp [arbitrate]
@[simp] theorem arbitrate_sru_consume (s : State) : (arbitrate s).sru.consume = s.sru.consume := by simp [arbitrate]
@[simp] theorem arbitrate_sru_records (s : State) : (arbitrate s).sru.records = s.sru.records := by simp [arbitrate]
@[simp] theorem arbitrate_sru_recordWord (s : State) : (arbitrate s).sru.recordWord = s.sru.recordWord := by simp [arbitrate]
@[simp] theorem arbitrate_sru_status (s : State) : (arbitrate s).sru.status = s.sru.status := by simp [arbitrate]
@[simp] theorem arbitrate_sru_runState (s : State) : (arbitrate s).sru.runState = s.sru.runState := by simp [arbitrate]
@[simp] theorem arbitrate_sru_resetLeft (s : State) : (arbitrate s).sru.resetLeft = s.sru.resetLeft := by simp [arbitrate]
@[simp] theorem arbitrate_sru_helmShare (s : State) : (arbitrate s).sru.helmShare = s.sru.helmShare := by simp [arbitrate]
@[simp] theorem arbitrate_sru_zeroDue (s : State) : (arbitrate s).sru.zeroDue = s.sru.zeroDue := by simp [arbitrate]
@[simp] theorem arbitrate_ptp_presented (s : State) : (arbitrate s).ptp.presented = s.ptp.presented := by simp [arbitrate]
@[simp] theorem arbitrate_ptp_readData (s : State) : (arbitrate s).ptp.readData = s.ptp.readData := by simp [arbitrate]
@[simp] theorem arbitrate_ptp_dropped (s : State) : (arbitrate s).ptp.dropped = s.ptp.dropped := by simp [arbitrate]
@[simp] theorem arbitrate_ptp_handovers (s : State) : (arbitrate s).ptp.handovers = s.ptp.handovers := by simp [arbitrate]

/-- A command that is carried out answers a next state, arbitrated (R173). -/
theorem done_eq (s : State) : done s = .next (arbitrate s) := rfl

/-! ## Freeing and abandoning the port (R172) -/

@[simp] theorem freePort_pending (s : State) : (freePort s).pending = s.pending := rfl
@[simp] theorem freePort_mem (s : State) : (freePort s).mem = s.mem := rfl
@[simp] theorem freePort_rst (s : State) : (freePort s).rst = s.rst := rfl
@[simp] theorem freePort_ptp (s : State) : (freePort s).ptp = s.ptp := rfl
@[simp] theorem freePort_rwk (s : State) : (freePort s).rwk = s.rwk := rfl
@[simp] theorem freePort_ehu (s : State) : (freePort s).ehu = s.ehu := rfl
@[simp] theorem freePort_sce (s : State) : (freePort s).sce = s.sce := rfl
@[simp] theorem freePort_hlr (s : State) : (freePort s).hlr = s.hlr := rfl
@[simp] theorem freePort_helm (s : State) : (freePort s).helm = s.helm := rfl
@[simp] theorem freePort_ftu (s : State) : (freePort s).ftu = s.ftu := rfl
@[simp] theorem freePort_hlt (s : State) : (freePort s).hlt = s.hlt := rfl
@[simp] theorem freePort_sru (s : State) : (freePort s).sru = s.sru := rfl

@[simp] theorem orphanOf_pending (s : State) (r : Requester) : (orphanOf s r).pending = s.pending := by
  unfold orphanOf; split <;> rfl
@[simp] theorem orphanOf_mem (s : State) (r : Requester) : (orphanOf s r).mem = s.mem := by
  unfold orphanOf; split <;> rfl
@[simp] theorem orphanOf_rst (s : State) (r : Requester) : (orphanOf s r).rst = s.rst := by
  unfold orphanOf; split <;> rfl
@[simp] theorem orphanOf_ptp (s : State) (r : Requester) : (orphanOf s r).ptp = s.ptp := by
  unfold orphanOf; split <;> rfl
@[simp] theorem orphanOf_rwk (s : State) (r : Requester) : (orphanOf s r).rwk = s.rwk := by
  unfold orphanOf; split <;> rfl
@[simp] theorem orphanOf_ehu (s : State) (r : Requester) : (orphanOf s r).ehu = s.ehu := by
  unfold orphanOf; split <;> rfl
@[simp] theorem orphanOf_sce (s : State) (r : Requester) : (orphanOf s r).sce = s.sce := by
  unfold orphanOf; split <;> rfl
@[simp] theorem orphanOf_hlr (s : State) (r : Requester) : (orphanOf s r).hlr = s.hlr := by
  unfold orphanOf; split <;> rfl
@[simp] theorem orphanOf_helm (s : State) (r : Requester) : (orphanOf s r).helm = s.helm := by
  unfold orphanOf; split <;> rfl
@[simp] theorem orphanOf_ftu (s : State) (r : Requester) : (orphanOf s r).ftu = s.ftu := by
  unfold orphanOf; split <;> rfl
@[simp] theorem orphanOf_hlt (s : State) (r : Requester) : (orphanOf s r).hlt = s.hlt := by
  unfold orphanOf; split <;> rfl
@[simp] theorem orphanOf_sru (s : State) (r : Requester) : (orphanOf s r).sru = s.sru := by
  unfold orphanOf; split <;> rfl

/-! ## The on-air list and the near-full flag (R30, R45) -/

@[simp] theorem recomputeOnAir_pending (s : State) : (recomputeOnAir s).pending = s.pending := rfl
@[simp] theorem recomputeOnAir_mem (s : State) : (recomputeOnAir s).mem = s.mem := rfl
@[simp] theorem recomputeOnAir_rst (s : State) : (recomputeOnAir s).rst = s.rst := rfl
@[simp] theorem recomputeOnAir_ptp (s : State) : (recomputeOnAir s).ptp = s.ptp := rfl
@[simp] theorem recomputeOnAir_port (s : State) : (recomputeOnAir s).port = s.port := rfl
@[simp] theorem recomputeOnAir_rwk (s : State) : (recomputeOnAir s).rwk = s.rwk := rfl
@[simp] theorem recomputeOnAir_sce (s : State) : (recomputeOnAir s).sce = s.sce := rfl
@[simp] theorem recomputeOnAir_hlr (s : State) : (recomputeOnAir s).hlr = s.hlr := rfl
@[simp] theorem recomputeOnAir_helm (s : State) : (recomputeOnAir s).helm = s.helm := rfl
@[simp] theorem recomputeOnAir_ftu (s : State) : (recomputeOnAir s).ftu = s.ftu := rfl
@[simp] theorem recomputeOnAir_hlt (s : State) : (recomputeOnAir s).hlt = s.hlt := rfl
@[simp] theorem recomputeOnAir_sru (s : State) : (recomputeOnAir s).sru = s.sru := rfl

@[simp] theorem nearFullTest_pending (s : State) : (nearFullTest s).pending = s.pending := by simp [nearFullTest]
@[simp] theorem nearFullTest_mem (s : State) : (nearFullTest s).mem = s.mem := by simp [nearFullTest]
@[simp] theorem nearFullTest_rst (s : State) : (nearFullTest s).rst = s.rst := by simp [nearFullTest]
@[simp] theorem nearFullTest_ptp (s : State) : (nearFullTest s).ptp = s.ptp := by simp [nearFullTest]
@[simp] theorem nearFullTest_port (s : State) : (nearFullTest s).port = s.port := by simp [nearFullTest]
@[simp] theorem nearFullTest_rwk (s : State) : (nearFullTest s).rwk = s.rwk := by simp [nearFullTest]
@[simp] theorem nearFullTest_sce (s : State) : (nearFullTest s).sce = s.sce := by simp [nearFullTest]
@[simp] theorem nearFullTest_hlr (s : State) : (nearFullTest s).hlr = s.hlr := by simp [nearFullTest]
@[simp] theorem nearFullTest_helm (s : State) : (nearFullTest s).helm = s.helm := by simp [nearFullTest]
@[simp] theorem nearFullTest_ftu (s : State) : (nearFullTest s).ftu = s.ftu := by simp [nearFullTest]
@[simp] theorem nearFullTest_hlt (s : State) : (nearFullTest s).hlt = s.hlt := by simp [nearFullTest]
@[simp] theorem nearFullTest_queue (s : State) : (nearFullTest s).ehu.queue = s.ehu.queue := by simp [nearFullTest]

/-! ## The helm (R109 to R121): only the receivers, the helm and the SRU change -/

@[simp] theorem putIntoUse_pending (l : Link) (s : State) (u : ClaimantUpdate) : (putIntoUse l s u).pending = s.pending := by
  unfold putIntoUse
  cases u <;> dsimp only <;> (try split) <;> rfl

@[simp] theorem putStaged_pending (s : State) (l : Link) : (putStaged s l).pending = s.pending := by
  have : ∀ (us : List ClaimantUpdate) (s : State), (us.foldl (putIntoUse l) s).pending = s.pending := by
    intro us
    induction us with
    | nil => intro s; rfl
    | cons u rest ih => intro s; rw [List.foldl_cons, ih, putIntoUse_pending]
  exact this _ _

@[simp] theorem putStagedOf_pending (s : State) (c : Claimant) : (putStagedOf s c).pending = s.pending := by
  unfold putStagedOf; split <;> simp

@[simp] theorem changeHolder_pending (s : State) (a b : Option Claimant) (c : HelmCause) : (changeHolder s a b c).pending = s.pending := rfl

@[simp] theorem releaseHolder_pending (s : State) (c : Claimant) (k : HelmCause) : (releaseHolder s c k).pending = s.pending := by
  unfold releaseHolder; dsimp only; split <;> simp

@[simp] theorem withdraw_pending (s : State) (c : Claimant) : (withdraw s c).pending = s.pending := by simp [withdraw]

@[simp] theorem letGo_pending (s : State) (c : Claimant) (k : HelmCause) : (letGo s c k).pending = s.pending := by
  unfold letGo; split <;> simp

@[simp] theorem linkLost_pending (s : State) (l : Link) : (linkLost s l).pending = s.pending := by
  simp [linkLost, receiverLost]

@[simp] theorem judgeClaim_pending (s : State) (c : Claimant) : (judgeClaim s c).pending = s.pending := by
  unfold judgeClaim preempt; repeat' (first | rfl | split | simp)

@[simp] theorem preemptionTest_pending (s : State) (k : HelmCause) : (preemptionTest s k).pending = s.pending := by
  unfold preemptionTest preempt; repeat' (first | rfl | split)

@[simp] theorem putIntoUse_mem (l : Link) (s : State) (u : ClaimantUpdate) : (putIntoUse l s u).mem = s.mem := by
  unfold putIntoUse
  cases u <;> dsimp only <;> (try split) <;> rfl

@[simp] theorem putStaged_mem (s : State) (l : Link) : (putStaged s l).mem = s.mem := by
  have : ∀ (us : List ClaimantUpdate) (s : State), (us.foldl (putIntoUse l) s).mem = s.mem := by
    intro us
    induction us with
    | nil => intro s; rfl
    | cons u rest ih => intro s; rw [List.foldl_cons, ih, putIntoUse_mem]
  exact this _ _

@[simp] theorem putStagedOf_mem (s : State) (c : Claimant) : (putStagedOf s c).mem = s.mem := by
  unfold putStagedOf; split <;> simp

@[simp] theorem changeHolder_mem (s : State) (a b : Option Claimant) (c : HelmCause) : (changeHolder s a b c).mem = s.mem := rfl

@[simp] theorem releaseHolder_mem (s : State) (c : Claimant) (k : HelmCause) : (releaseHolder s c k).mem = s.mem := by
  unfold releaseHolder; dsimp only; split <;> simp

@[simp] theorem withdraw_mem (s : State) (c : Claimant) : (withdraw s c).mem = s.mem := by simp [withdraw]

@[simp] theorem letGo_mem (s : State) (c : Claimant) (k : HelmCause) : (letGo s c k).mem = s.mem := by
  unfold letGo; split <;> simp

@[simp] theorem linkLost_mem (s : State) (l : Link) : (linkLost s l).mem = s.mem := by
  simp [linkLost, receiverLost]

@[simp] theorem judgeClaim_mem (s : State) (c : Claimant) : (judgeClaim s c).mem = s.mem := by
  unfold judgeClaim preempt; repeat' (first | rfl | split | simp)

@[simp] theorem preemptionTest_mem (s : State) (k : HelmCause) : (preemptionTest s k).mem = s.mem := by
  unfold preemptionTest preempt; repeat' (first | rfl | split)

@[simp] theorem putIntoUse_rst (l : Link) (s : State) (u : ClaimantUpdate) : (putIntoUse l s u).rst = s.rst := by
  unfold putIntoUse
  cases u <;> dsimp only <;> (try split) <;> rfl

@[simp] theorem putStaged_rst (s : State) (l : Link) : (putStaged s l).rst = s.rst := by
  have : ∀ (us : List ClaimantUpdate) (s : State), (us.foldl (putIntoUse l) s).rst = s.rst := by
    intro us
    induction us with
    | nil => intro s; rfl
    | cons u rest ih => intro s; rw [List.foldl_cons, ih, putIntoUse_rst]
  exact this _ _

@[simp] theorem putStagedOf_rst (s : State) (c : Claimant) : (putStagedOf s c).rst = s.rst := by
  unfold putStagedOf; split <;> simp

@[simp] theorem changeHolder_rst (s : State) (a b : Option Claimant) (c : HelmCause) : (changeHolder s a b c).rst = s.rst := rfl

@[simp] theorem releaseHolder_rst (s : State) (c : Claimant) (k : HelmCause) : (releaseHolder s c k).rst = s.rst := by
  unfold releaseHolder; dsimp only; split <;> simp

@[simp] theorem withdraw_rst (s : State) (c : Claimant) : (withdraw s c).rst = s.rst := by simp [withdraw]

@[simp] theorem letGo_rst (s : State) (c : Claimant) (k : HelmCause) : (letGo s c k).rst = s.rst := by
  unfold letGo; split <;> simp

@[simp] theorem linkLost_rst (s : State) (l : Link) : (linkLost s l).rst = s.rst := by
  simp [linkLost, receiverLost]

@[simp] theorem judgeClaim_rst (s : State) (c : Claimant) : (judgeClaim s c).rst = s.rst := by
  unfold judgeClaim preempt; repeat' (first | rfl | split | simp)

@[simp] theorem preemptionTest_rst (s : State) (k : HelmCause) : (preemptionTest s k).rst = s.rst := by
  unfold preemptionTest preempt; repeat' (first | rfl | split)

@[simp] theorem putIntoUse_ptp (l : Link) (s : State) (u : ClaimantUpdate) : (putIntoUse l s u).ptp = s.ptp := by
  unfold putIntoUse
  cases u <;> dsimp only <;> (try split) <;> rfl

@[simp] theorem putStaged_ptp (s : State) (l : Link) : (putStaged s l).ptp = s.ptp := by
  have : ∀ (us : List ClaimantUpdate) (s : State), (us.foldl (putIntoUse l) s).ptp = s.ptp := by
    intro us
    induction us with
    | nil => intro s; rfl
    | cons u rest ih => intro s; rw [List.foldl_cons, ih, putIntoUse_ptp]
  exact this _ _

@[simp] theorem putStagedOf_ptp (s : State) (c : Claimant) : (putStagedOf s c).ptp = s.ptp := by
  unfold putStagedOf; split <;> simp

@[simp] theorem changeHolder_ptp (s : State) (a b : Option Claimant) (c : HelmCause) : (changeHolder s a b c).ptp = s.ptp := rfl

@[simp] theorem releaseHolder_ptp (s : State) (c : Claimant) (k : HelmCause) : (releaseHolder s c k).ptp = s.ptp := by
  unfold releaseHolder; dsimp only; split <;> simp

@[simp] theorem withdraw_ptp (s : State) (c : Claimant) : (withdraw s c).ptp = s.ptp := by simp [withdraw]

@[simp] theorem letGo_ptp (s : State) (c : Claimant) (k : HelmCause) : (letGo s c k).ptp = s.ptp := by
  unfold letGo; split <;> simp

@[simp] theorem linkLost_ptp (s : State) (l : Link) : (linkLost s l).ptp = s.ptp := by
  simp [linkLost, receiverLost]

@[simp] theorem judgeClaim_ptp (s : State) (c : Claimant) : (judgeClaim s c).ptp = s.ptp := by
  unfold judgeClaim preempt; repeat' (first | rfl | split | simp)

@[simp] theorem preemptionTest_ptp (s : State) (k : HelmCause) : (preemptionTest s k).ptp = s.ptp := by
  unfold preemptionTest preempt; repeat' (first | rfl | split)

@[simp] theorem putIntoUse_port (l : Link) (s : State) (u : ClaimantUpdate) : (putIntoUse l s u).port = s.port := by
  unfold putIntoUse
  cases u <;> dsimp only <;> (try split) <;> rfl

@[simp] theorem putStaged_port (s : State) (l : Link) : (putStaged s l).port = s.port := by
  have : ∀ (us : List ClaimantUpdate) (s : State), (us.foldl (putIntoUse l) s).port = s.port := by
    intro us
    induction us with
    | nil => intro s; rfl
    | cons u rest ih => intro s; rw [List.foldl_cons, ih, putIntoUse_port]
  exact this _ _

@[simp] theorem putStagedOf_port (s : State) (c : Claimant) : (putStagedOf s c).port = s.port := by
  unfold putStagedOf; split <;> simp

@[simp] theorem changeHolder_port (s : State) (a b : Option Claimant) (c : HelmCause) : (changeHolder s a b c).port = s.port := rfl

@[simp] theorem releaseHolder_port (s : State) (c : Claimant) (k : HelmCause) : (releaseHolder s c k).port = s.port := by
  unfold releaseHolder; dsimp only; split <;> simp

@[simp] theorem withdraw_port (s : State) (c : Claimant) : (withdraw s c).port = s.port := by simp [withdraw]

@[simp] theorem letGo_port (s : State) (c : Claimant) (k : HelmCause) : (letGo s c k).port = s.port := by
  unfold letGo; split <;> simp

@[simp] theorem linkLost_port (s : State) (l : Link) : (linkLost s l).port = s.port := by
  simp [linkLost, receiverLost]

@[simp] theorem judgeClaim_port (s : State) (c : Claimant) : (judgeClaim s c).port = s.port := by
  unfold judgeClaim preempt; repeat' (first | rfl | split | simp)

@[simp] theorem preemptionTest_port (s : State) (k : HelmCause) : (preemptionTest s k).port = s.port := by
  unfold preemptionTest preempt; repeat' (first | rfl | split)

@[simp] theorem putIntoUse_rwk (l : Link) (s : State) (u : ClaimantUpdate) : (putIntoUse l s u).rwk = s.rwk := by
  unfold putIntoUse
  cases u <;> dsimp only <;> (try split) <;> rfl

@[simp] theorem putStaged_rwk (s : State) (l : Link) : (putStaged s l).rwk = s.rwk := by
  have : ∀ (us : List ClaimantUpdate) (s : State), (us.foldl (putIntoUse l) s).rwk = s.rwk := by
    intro us
    induction us with
    | nil => intro s; rfl
    | cons u rest ih => intro s; rw [List.foldl_cons, ih, putIntoUse_rwk]
  exact this _ _

@[simp] theorem putStagedOf_rwk (s : State) (c : Claimant) : (putStagedOf s c).rwk = s.rwk := by
  unfold putStagedOf; split <;> simp

@[simp] theorem changeHolder_rwk (s : State) (a b : Option Claimant) (c : HelmCause) : (changeHolder s a b c).rwk = s.rwk := rfl

@[simp] theorem releaseHolder_rwk (s : State) (c : Claimant) (k : HelmCause) : (releaseHolder s c k).rwk = s.rwk := by
  unfold releaseHolder; dsimp only; split <;> simp

@[simp] theorem withdraw_rwk (s : State) (c : Claimant) : (withdraw s c).rwk = s.rwk := by simp [withdraw]

@[simp] theorem letGo_rwk (s : State) (c : Claimant) (k : HelmCause) : (letGo s c k).rwk = s.rwk := by
  unfold letGo; split <;> simp

@[simp] theorem linkLost_rwk (s : State) (l : Link) : (linkLost s l).rwk = s.rwk := by
  simp [linkLost, receiverLost]

@[simp] theorem judgeClaim_rwk (s : State) (c : Claimant) : (judgeClaim s c).rwk = s.rwk := by
  unfold judgeClaim preempt; repeat' (first | rfl | split | simp)

@[simp] theorem preemptionTest_rwk (s : State) (k : HelmCause) : (preemptionTest s k).rwk = s.rwk := by
  unfold preemptionTest preempt; repeat' (first | rfl | split)

@[simp] theorem putIntoUse_ehu (l : Link) (s : State) (u : ClaimantUpdate) : (putIntoUse l s u).ehu = s.ehu := by
  unfold putIntoUse
  cases u <;> dsimp only <;> (try split) <;> rfl

@[simp] theorem putStaged_ehu (s : State) (l : Link) : (putStaged s l).ehu = s.ehu := by
  have : ∀ (us : List ClaimantUpdate) (s : State), (us.foldl (putIntoUse l) s).ehu = s.ehu := by
    intro us
    induction us with
    | nil => intro s; rfl
    | cons u rest ih => intro s; rw [List.foldl_cons, ih, putIntoUse_ehu]
  exact this _ _

@[simp] theorem putStagedOf_ehu (s : State) (c : Claimant) : (putStagedOf s c).ehu = s.ehu := by
  unfold putStagedOf; split <;> simp

@[simp] theorem changeHolder_ehu (s : State) (a b : Option Claimant) (c : HelmCause) : (changeHolder s a b c).ehu = s.ehu := rfl

@[simp] theorem releaseHolder_ehu (s : State) (c : Claimant) (k : HelmCause) : (releaseHolder s c k).ehu = s.ehu := by
  unfold releaseHolder; dsimp only; split <;> simp

@[simp] theorem withdraw_ehu (s : State) (c : Claimant) : (withdraw s c).ehu = s.ehu := by simp [withdraw]

@[simp] theorem letGo_ehu (s : State) (c : Claimant) (k : HelmCause) : (letGo s c k).ehu = s.ehu := by
  unfold letGo; split <;> simp

@[simp] theorem linkLost_ehu (s : State) (l : Link) : (linkLost s l).ehu = s.ehu := by
  simp [linkLost, receiverLost]

@[simp] theorem judgeClaim_ehu (s : State) (c : Claimant) : (judgeClaim s c).ehu = s.ehu := by
  unfold judgeClaim preempt; repeat' (first | rfl | split | simp)

@[simp] theorem preemptionTest_ehu (s : State) (k : HelmCause) : (preemptionTest s k).ehu = s.ehu := by
  unfold preemptionTest preempt; repeat' (first | rfl | split)

@[simp] theorem putIntoUse_sce (l : Link) (s : State) (u : ClaimantUpdate) : (putIntoUse l s u).sce = s.sce := by
  unfold putIntoUse
  cases u <;> dsimp only <;> (try split) <;> rfl

@[simp] theorem putStaged_sce (s : State) (l : Link) : (putStaged s l).sce = s.sce := by
  have : ∀ (us : List ClaimantUpdate) (s : State), (us.foldl (putIntoUse l) s).sce = s.sce := by
    intro us
    induction us with
    | nil => intro s; rfl
    | cons u rest ih => intro s; rw [List.foldl_cons, ih, putIntoUse_sce]
  exact this _ _

@[simp] theorem putStagedOf_sce (s : State) (c : Claimant) : (putStagedOf s c).sce = s.sce := by
  unfold putStagedOf; split <;> simp

@[simp] theorem changeHolder_sce (s : State) (a b : Option Claimant) (c : HelmCause) : (changeHolder s a b c).sce = s.sce := rfl

@[simp] theorem releaseHolder_sce (s : State) (c : Claimant) (k : HelmCause) : (releaseHolder s c k).sce = s.sce := by
  unfold releaseHolder; dsimp only; split <;> simp

@[simp] theorem withdraw_sce (s : State) (c : Claimant) : (withdraw s c).sce = s.sce := by simp [withdraw]

@[simp] theorem letGo_sce (s : State) (c : Claimant) (k : HelmCause) : (letGo s c k).sce = s.sce := by
  unfold letGo; split <;> simp

@[simp] theorem linkLost_sce (s : State) (l : Link) : (linkLost s l).sce = s.sce := by
  simp [linkLost, receiverLost]

@[simp] theorem judgeClaim_sce (s : State) (c : Claimant) : (judgeClaim s c).sce = s.sce := by
  unfold judgeClaim preempt; repeat' (first | rfl | split | simp)

@[simp] theorem preemptionTest_sce (s : State) (k : HelmCause) : (preemptionTest s k).sce = s.sce := by
  unfold preemptionTest preempt; repeat' (first | rfl | split)

@[simp] theorem putIntoUse_ftu (l : Link) (s : State) (u : ClaimantUpdate) : (putIntoUse l s u).ftu = s.ftu := by
  unfold putIntoUse
  cases u <;> dsimp only <;> (try split) <;> rfl

@[simp] theorem putStaged_ftu (s : State) (l : Link) : (putStaged s l).ftu = s.ftu := by
  have : ∀ (us : List ClaimantUpdate) (s : State), (us.foldl (putIntoUse l) s).ftu = s.ftu := by
    intro us
    induction us with
    | nil => intro s; rfl
    | cons u rest ih => intro s; rw [List.foldl_cons, ih, putIntoUse_ftu]
  exact this _ _

@[simp] theorem putStagedOf_ftu (s : State) (c : Claimant) : (putStagedOf s c).ftu = s.ftu := by
  unfold putStagedOf; split <;> simp

@[simp] theorem changeHolder_ftu (s : State) (a b : Option Claimant) (c : HelmCause) : (changeHolder s a b c).ftu = s.ftu := rfl

@[simp] theorem releaseHolder_ftu (s : State) (c : Claimant) (k : HelmCause) : (releaseHolder s c k).ftu = s.ftu := by
  unfold releaseHolder; dsimp only; split <;> simp

@[simp] theorem withdraw_ftu (s : State) (c : Claimant) : (withdraw s c).ftu = s.ftu := by simp [withdraw]

@[simp] theorem letGo_ftu (s : State) (c : Claimant) (k : HelmCause) : (letGo s c k).ftu = s.ftu := by
  unfold letGo; split <;> simp

@[simp] theorem linkLost_ftu (s : State) (l : Link) : (linkLost s l).ftu = s.ftu := by
  simp [linkLost, receiverLost]

@[simp] theorem judgeClaim_ftu (s : State) (c : Claimant) : (judgeClaim s c).ftu = s.ftu := by
  unfold judgeClaim preempt; repeat' (first | rfl | split | simp)

@[simp] theorem preemptionTest_ftu (s : State) (k : HelmCause) : (preemptionTest s k).ftu = s.ftu := by
  unfold preemptionTest preempt; repeat' (first | rfl | split)

@[simp] theorem putIntoUse_hlt (l : Link) (s : State) (u : ClaimantUpdate) : (putIntoUse l s u).hlt = s.hlt := by
  unfold putIntoUse
  cases u <;> dsimp only <;> (try split) <;> rfl

@[simp] theorem putStaged_hlt (s : State) (l : Link) : (putStaged s l).hlt = s.hlt := by
  have : ∀ (us : List ClaimantUpdate) (s : State), (us.foldl (putIntoUse l) s).hlt = s.hlt := by
    intro us
    induction us with
    | nil => intro s; rfl
    | cons u rest ih => intro s; rw [List.foldl_cons, ih, putIntoUse_hlt]
  exact this _ _

@[simp] theorem putStagedOf_hlt (s : State) (c : Claimant) : (putStagedOf s c).hlt = s.hlt := by
  unfold putStagedOf; split <;> simp

@[simp] theorem changeHolder_hlt (s : State) (a b : Option Claimant) (c : HelmCause) : (changeHolder s a b c).hlt = s.hlt := rfl

@[simp] theorem releaseHolder_hlt (s : State) (c : Claimant) (k : HelmCause) : (releaseHolder s c k).hlt = s.hlt := by
  unfold releaseHolder; dsimp only; split <;> simp

@[simp] theorem withdraw_hlt (s : State) (c : Claimant) : (withdraw s c).hlt = s.hlt := by simp [withdraw]

@[simp] theorem letGo_hlt (s : State) (c : Claimant) (k : HelmCause) : (letGo s c k).hlt = s.hlt := by
  unfold letGo; split <;> simp

@[simp] theorem linkLost_hlt (s : State) (l : Link) : (linkLost s l).hlt = s.hlt := by
  simp [linkLost, receiverLost]

@[simp] theorem judgeClaim_hlt (s : State) (c : Claimant) : (judgeClaim s c).hlt = s.hlt := by
  unfold judgeClaim preempt; repeat' (first | rfl | split | simp)

@[simp] theorem preemptionTest_hlt (s : State) (k : HelmCause) : (preemptionTest s k).hlt = s.hlt := by
  unfold preemptionTest preempt; repeat' (first | rfl | split)

end Sys2Proof.Machine
end

