-- ==== Sys2Proof/Laws/Frame.lean ====
section
/-! SUPPORT. A command that is carried out ends in the arbiter: what the arbiter leaves alone, and the frame of a command
from the blocks it wrote. -/

namespace Sys2Proof.Machine

/-- The SRU's choice of its next access touches only its request (R203). -/
theorem requestSru_sru (s : State) : (requestSru s).sru = { s.sru with request := (requestSru s).sru.request } := by
  unfold requestSru; split <;> rfl

/-- A grant touches the SRU only where it takes the data of an attention write (R199). -/
theorem grantPart_sru (s : State) :
    (grantPart s).sru = s.sru ∨ (grantPart s).sru = { s.sru with fresh := 0, attnReq := false } := by
  unfold grantPart
  split
  · exact .inl rfl
  · split
    · exact .inl rfl
    · dsimp only
      split
      · exact .inr rfl
      · exact .inl rfl

theorem grant_sru (s : State) : (grant s).sru = s.sru ∨ (grant s).sru = { s.sru with fresh := 0, attnReq := false } := by
  rcases grant_cases s with h | ⟨-, -, h | ⟨c, -, h⟩⟩
  · exact .inl (by rw [h])
  · rw [h]; exact grantPart_sru s
  · exact .inl (by rw [h, grantProcessor_sru])

/-- The arbiter leaves of the SRU all but its next request and what an attention write takes (R199, R203). -/
theorem arbitrate_sruIs (u : State) : sruIs u.sru (arbitrate u) := by
  unfold sruIs arbitrate
  have h1 : (clearFairness (requestSru u)).sru = { u.sru with request := (requestSru u).sru.request } := by
    rw [clearFairness_sru, requestSru_sru]
  rcases grant_sru (clearFairness (requestSru u)) with h | h <;> rw [h, h1]
  · exact ⟨rfl, .inl ⟨rfl, rfl⟩⟩
  · exact ⟨rfl, .inr ⟨rfl, rfl⟩⟩

/-- The access that waits for the arbiter is the one carried, and it has not been granted (R173). -/
theorem processorWaits_spec {s : State} {c : Carried} (h : processorWaits s = some c) :
    s.ptp.carried = some c ∧ c.stage = .waiting := by
  unfold processorWaits at h
  split at h
  · cases h
  · next d hd =>
    split at h
    · next hw => cases h; exact ⟨hd, hw.1⟩
    · cases h

/-- The arbiter leaves of the processor side all but the grant of the access that waits (R173). -/
theorem arbitrate_ptp (u : State) :
    (arbitrate u).ptp = { u.ptp with carried := (arbitrate u).ptp.carried } ∧ carriedKept u (arbitrate u) := by
  have hp : (clearFairness (requestSru u)).ptp = u.ptp := by rw [clearFairness_ptp, requestSru_ptp]
  unfold arbitrate carriedKept
  rcases grant_cases (clearFairness (requestSru u)) with h | ⟨-, -, h | ⟨c, hc, h⟩⟩
  · rw [h, hp]; exact ⟨rfl, .inl rfl⟩
  · rw [h, grantPart_ptp, hp]; exact ⟨rfl, .inl rfl⟩
  · obtain ⟨h1, h2⟩ := processorWaits_spec hc
    rw [hp] at h1
    rw [h]
    refine ⟨?_, .inr ⟨c, h1, h2, rfl⟩⟩
    simp only [grantProcessor, State.withPtp_ptp, hp]

/-- The arbiter leaves an access in progress alone (R172). -/
theorem arbitrate_portKept (u : State) : portKept u (arbitrate u) := by
  intro hb
  unfold arbitrate
  have hr : (requestSru u).port = u.port := requestSru_port u
  have hg : grant (clearFairness (requestSru u)) = clearFairness (requestSru u) := by
    rcases grant_cases (clearFairness (requestSru u)) with h | ⟨h, -⟩
    · exact h
    · exfalso
      apply hb
      unfold clearFairness at h
      split at h
      · rwa [hr] at h
      · rw [State.withPort_port, hr] at h; exact h
  rw [hg]
  unfold clearFairness
  split
  · rw [hr]; exact ⟨rfl, .inl rfl⟩
  · rw [State.withPort_port, hr]; exact ⟨rfl, .inr rfl⟩

/-- A block is just as before. -/
def plainlySame (s u : State) : Block → Prop
  | .mem => u.mem = s.mem
  | .rst => u.rst = s.rst
  | .ptp => u.ptp = s.ptp
  | .port => u.port = s.port
  | .rwk => u.rwk = s.rwk
  | .ehu => u.ehu = s.ehu
  | .sce => u.sce = s.sce
  | .hlr => u.hlr = s.hlr
  | .helm => u.helm = s.helm
  | .ftu => u.ftu = s.ftu
  | .hlt => u.hlt = s.hlt
  | .sru => u.sru = s.sru

theorem sameBlock_arbitrate {s u : State} {b : Block} (h : plainlySame s u b) : sameBlock s (arbitrate u) b := by
  cases b <;> simp only [plainlySame] at h <;> simp only [sameBlock]
  case ptp =>
    have := arbitrate_ptp u
    unfold carriedKept at *
    rwa [h] at this
  case port =>
    have := arbitrate_portKept u
    unfold portKept at *
    rwa [h] at this
  case sru =>
    have := arbitrate_sruIs u
    rwa [h] at this
  all_goals simp [h]

/-- The frame of a command that wrote only the listed blocks before the arbiter acted. -/
theorem onlyChanges_arbitrate {bs : List Block} {s u : State} (hq : u.pending = s.pending)
    (h : ∀ b, b ∉ bs → plainlySame s u b) : onlyChanges bs s (arbitrate u) :=
  ⟨by simp [hq], fun b hb => sameBlock_arbitrate (h b hb)⟩

/-- The same for a command that also raised events (R202). -/
theorem onlyRaises_arbitrate {bs : List Block} {es : List Event} {s u : State} (hq : u.pending = s.pending)
    (h : ∀ b, b ∉ Block.sru :: bs → plainlySame s u b) (he : u.sru = acceptAll s.sru u es) :
    onlyRaises bs es s (arbitrate u) := by
  refine ⟨onlyChanges_arbitrate hq h, ?_⟩
  have h1 : acceptAll s.sru (arbitrate u) es = acceptAll s.sru u es := by simp [acceptAll]
  rw [h1, ← he]
  exact arbitrate_sruIs u

/-- Events raised on a state stand at the SRU as accepted one after another (R202). -/
theorem raiseAll_sru (s : State) (es : List Event) : (raiseAll s es).sru = acceptAll s.sru s es := by
  unfold raiseAll acceptAll
  induction es generalizing s with
  | nil => rfl
  | cons e rest ih => rw [List.foldl_cons, ih]; rfl

/-! ## Taking an access that stands presented -/

/-- The blocks that taking an access may write (R5, R35, R169, R202). -/
def takingBlocks : List Block := [.ptp, .rwk, .ehu, .sru]

theorem plainlySame_trans {s u v : State} {b : Block} (h : plainlySame s u b) (h' : plainlySame u v b) :
    plainlySame s v b := by cases b <;> exact Eq.trans h' h

theorem commitActs_same {s : State} {a : Access} {b : Block} (hb : b ∉ takingBlocks) :
    plainlySame s (commitActs s a) b := by
  unfold commitActs
  cases b <;> simp [takingBlocks] at hb <;> simp only [plainlySame] <;> split <;> rfl

theorem structureSeen_same {s : State} {a : Access} {b : Block} (hb : b ∉ takingBlocks) :
    plainlySame s (structureSeen s a) b := by
  unfold structureSeen
  cases b <;> simp [takingBlocks] at hb <;> simp only [plainlySame] <;> split <;> rfl

theorem carry_same {s : State} {a : Access} {lanes : Lanes} {w : Bool} {b : Block} (hb : b ∉ takingBlocks) :
    plainlySame s (carry s a lanes w) b := by
  cases b <;> simp [takingBlocks] at hb <;> rfl

theorem decideWrite_same {s : State} {a : Access} {w : Bool} {b : Block} (hb : b ∉ takingBlocks) :
    plainlySame s (decideWrite s a w) b := by
  unfold decideWrite
  dsimp only
  split
  · exact plainlySame_trans (commitActs_same hb) (carry_same hb)
  · split
    case h_3 => cases b <;> simp [takingBlocks] at hb <;> simp [plainlySame]
    case h_4 => exact plainlySame_trans (commitActs_same hb) (carry_same hb)
    all_goals
      refine plainlySame_trans (plainlySame_trans ?_ (commitActs_same hb)) (carry_same hb)
      cases b <;> simp [takingBlocks] at hb <;> simp [plainlySame]

theorem takeAccess_same {s : State} {a : Access} {b : Block} (hb : b ∉ takingBlocks) :
    plainlySame s (takeAccess s a) b := by
  have dropped : plainlySame s ((carry s a 0 false).withPtp { (carry s a 0 false).ptp with dropped := s.ptp.dropped + 1 }) b := by
    cases b <;> simp [takingBlocks] at hb <;> rfl
  unfold takeAccess
  split
  · split
    · exact carry_same hb
    · exact carry_same hb
    · split
      · exact carry_same hb
      · exact dropped
    · exact plainlySame_trans (structureSeen_same hb) (carry_same hb)
    · exact plainlySame_trans (structureSeen_same hb) (decideWrite_same hb)
  · exact carry_same hb

@[simp] theorem commitActs_pending (s : State) (a : Access) : (commitActs s a).pending = s.pending := by
  unfold commitActs; split <;> rfl

@[simp] theorem structureSeen_pending (s : State) (a : Access) : (structureSeen s a).pending = s.pending := by
  unfold structureSeen; split <;> rfl

@[simp] theorem decideWrite_pending (s : State) (a : Access) (w : Bool) : (decideWrite s a w).pending = s.pending := by
  unfold decideWrite; dsimp only; repeat' split
  all_goals simp [carry]

@[simp] theorem takeAccess_pending (s : State) (a : Access) : (takeAccess s a).pending = s.pending := by
  unfold takeAccess; repeat' split
  all_goals simp [carry]

/-- Either nothing is taken, or nothing is carried, no hand-over waits, and the access that stands presented is taken (R169,
R186). -/
theorem takePresented_cases (s : State) :
    (takePresented s = s ∧ (¬readyToTake s ∨ s.ptp.presented = none)) ∨
      ∃ a, readyToTake s ∧ s.ptp.presented = some a ∧
        takePresented s = takeAccess (s.withPtp { s.ptp with presented := none }) a := by
  unfold takePresented
  split
  · next a hc hp =>
    split
    · next h => exact .inr ⟨a, ⟨h.1, hc, h.2⟩, hp, rfl⟩
    · next h => exact .inl ⟨rfl, .inl fun hr => h ⟨hr.1, hr.2.2⟩⟩
  · next hne =>
    refine .inl ⟨rfl, ?_⟩
    rcases hp : s.ptp.presented with _ | a
    · exact .inr rfl
    · exact .inl fun hr => hne a hr.2.1 hp

/-- With nothing to take, the port goes on to the arbiter (R173). -/
theorem goOn_eq_arbitrate {s : State} (h : ¬readyToTake s ∨ s.ptp.presented = none) : goOn s = arbitrate s := by
  rcases takePresented_cases s with ⟨h', -⟩ | ⟨a, hr, ha, -⟩
  · rw [goOn, h']
  · rcases h with h | h
    · exact absurd hr h
    · rw [ha] at h; cases h

/-- What the port's going on writes besides what the arbiter may do (R169). -/
theorem goOn_frame (u : State) : onlyChanges takingBlocks u (goOn u) := by
  unfold goOn
  rcases takePresented_cases u with ⟨h, -⟩ | ⟨a, -, -, h⟩ <;> rw [h]
  · exact onlyChanges_arbitrate rfl fun b _ => by cases b <;> rfl
  · refine onlyChanges_arbitrate ?_ fun b hb => plainlySame_trans ?_ (takeAccess_same hb)
    · exact takeAccess_pending _ a
    · cases b <;> simp [takingBlocks] at hb <;> rfl

end Sys2Proof.Machine
end

