-- ==== Sys2Proof/Laws/Memory.lean ====
section
/-! SUPPORT. The script memory: every write keeps the canonical form, a byte read after a write is the byte written, and every
other byte reads as before. -/

namespace Sys2Proof.Machine

theorem Memory.wfFrom_mono {m : Memory} {lo k : Nat} (h : Memory.wfFrom lo m = true) (hk : k ≤ lo) :
    Memory.wfFrom k m = true := by
  cases m with
  | nil => rfl
  | cons c rest =>
    obtain ⟨a, b⟩ := c
    simp only [Memory.wfFrom, Bool.and_eq_true, decide_eq_true_eq] at h ⊢
    exact ⟨⟨by omega, h.1.2⟩, h.2⟩

/-- A byte below the listed addresses is unlisted. -/
theorem readByte_below {m : Memory} {lo a : Nat} (h : Memory.wfFrom lo m = true) (ha : a < lo) :
    readByte m a = unlistedByte := by
  induction m generalizing lo with
  | nil => rfl
  | cons c rest ih =>
    obtain ⟨k, b⟩ := c
    simp only [Memory.wfFrom, Bool.and_eq_true, decide_eq_true_eq] at h
    have hne : ¬k = a := by omega
    simp only [readByte, hne, if_false]
    exact ih h.2 (by omega)

theorem writeByte_wfFrom {m : Memory} {lo a : Nat} (b : Byte) (h : Memory.wfFrom lo m = true) (ha : lo ≤ a) :
    Memory.wfFrom lo (writeByte m a b) = true := by
  induction m generalizing lo with
  | nil =>
    by_cases hb : b = unlistedByte <;> simp [writeByte, hb, Memory.wfFrom, ha]
  | cons c rest ih =>
    obtain ⟨k, d⟩ := c
    have h' := h
    simp only [Memory.wfFrom, Bool.and_eq_true, decide_eq_true_eq] at h'
    obtain ⟨⟨hk, hd⟩, hr⟩ := h'
    by_cases hak : a < k
    · by_cases hb : b = unlistedByte
      · simp [writeByte, hak, hb, h]
      · have : Memory.wfFrom (a + 1) ((k, d) :: rest) = true := by
          simp only [Memory.wfFrom, Bool.and_eq_true, decide_eq_true_eq]
          exact ⟨⟨by omega, hd⟩, hr⟩
        simp [writeByte, hak, hb, Memory.wfFrom, ha] at this ⊢
        exact this
    · by_cases hek : a = k
      · by_cases hb : b = unlistedByte
        · simp only [writeByte, hek, Nat.lt_irrefl, if_false, if_true, hb]
          exact Memory.wfFrom_mono hr (by omega)
        · simp only [writeByte, hek, Nat.lt_irrefl, if_false, if_true, hb, Memory.wfFrom, Bool.and_eq_true, decide_eq_true_eq]
          exact ⟨⟨hk, by simpa using hb⟩, hr⟩
      · simp only [writeByte, hak, hek, if_false, Memory.wfFrom, Bool.and_eq_true, decide_eq_true_eq]
        exact ⟨⟨hk, hd⟩, ih hr (by omega)⟩

/-- A byte write keeps the canonical form. -/
theorem writeByte_wf {m : Memory} (a : Nat) (b : Byte) (h : m.wf = true) : Memory.wf (writeByte m a b) = true :=
  writeByte_wfFrom b h (Nat.zero_le a)

/-- The byte written reads back. -/
theorem readByte_writeByte_same {m : Memory} {lo : Nat} (a : Nat) (b : Byte) (h : Memory.wfFrom lo m = true) :
    readByte (writeByte m a b) a = b := by
  induction m generalizing lo with
  | nil => by_cases hb : b = unlistedByte <;> simp [writeByte, hb, readByte]
  | cons c rest ih =>
    obtain ⟨k, d⟩ := c
    simp only [Memory.wfFrom, Bool.and_eq_true, decide_eq_true_eq] at h
    obtain ⟨⟨hk, hd⟩, hr⟩ := h
    by_cases hak : a < k
    · by_cases hb : b = unlistedByte
      · have hne : ¬k = a := by omega
        simp only [writeByte, hak, hb, if_true, readByte, hne, if_false]
        exact readByte_below hr (by omega)
      · simp [writeByte, hak, hb, readByte]
    · by_cases hek : a = k
      · subst hek
        by_cases hb : b = unlistedByte
        · simp only [writeByte, Nat.lt_irrefl, if_false, if_true, hb]
          exact readByte_below hr (by omega)
        · simp [writeByte, hb, readByte]
      · have hne : ¬k = a := fun e => hek e.symm
        simp only [writeByte, hak, hek, if_false, readByte, hne]
        exact ih hr

/-- Every other byte reads as before. -/
theorem readByte_writeByte_ne (m : Memory) {a k : Nat} (b : Byte) (h : k ≠ a) :
    readByte (writeByte m a b) k = readByte m k := by
  induction m with
  | nil => by_cases hb : b = unlistedByte <;> simp [writeByte, hb, readByte, Ne.symm h]
  | cons c rest ih =>
    obtain ⟨j, d⟩ := c
    by_cases haj : a < j
    · by_cases hb : b = unlistedByte <;> simp [writeByte, haj, hb, readByte, Ne.symm h]
    · by_cases hej : a = j
      · subst hej
        by_cases hb : b = unlistedByte <;> simp [writeByte, hb, readByte, Ne.symm h]
      · simp only [writeByte, haj, hej, if_false, readByte, ih]

theorem writeLane_wf {m : Memory} (wa : Nat) (lanes : Lanes) (data : Word) (k : Nat) (h : m.wf = true) :
    Memory.wf (writeLane m wa lanes data k) = true := by
  unfold writeLane
  split
  · exact writeByte_wf _ _ h
  · exact h

/-- A word write keeps the canonical form. -/
theorem writeWord_wf {m : Memory} (wa : Nat) (lanes : Lanes) (data : Word) (h : m.wf = true) :
    Memory.wf (writeWord m wa lanes data) = true :=
  writeLane_wf _ _ _ _ (writeLane_wf _ _ _ _ (writeLane_wf _ _ _ _ (writeLane_wf _ _ _ _ h)))

theorem readByte_writeLane {m : Memory} (wa : Nat) (lanes : Lanes) (data : Word) (k a : Nat) (h : m.wf = true) :
    readByte (writeLane m wa lanes data k) a =
      if a = 4 * wa + k ∧ lanes.getLsbD k = true then laneOf data k else readByte m a := by
  unfold writeLane
  split
  · next hl =>
    by_cases ha : a = 4 * wa + k
    · subst ha
      simp only [hl, and_self, if_true]
      exact readByte_writeByte_same _ _ h
    · simp only [ha, false_and, if_false]
      exact readByte_writeByte_ne _ _ ha
  · next hl => simp [hl]

/-- What a word write does to every byte: the enabled lanes take theirs, and every other byte reads as before. -/
theorem readByte_writeWord {m : Memory} (wa : Nat) (lanes : Lanes) (data : Word) (a : Nat) (h : m.wf = true) :
    readByte (writeWord m wa lanes data) a =
      if a / 4 = wa ∧ lanes.getLsbD (a % 4) = true then laneOf data (a % 4) else readByte m a := by
  unfold writeWord
  rw [readByte_writeLane _ _ _ _ _ (writeLane_wf _ _ _ _ (writeLane_wf _ _ _ _ (writeLane_wf _ _ _ _ h))),
    readByte_writeLane _ _ _ _ _ (writeLane_wf _ _ _ _ (writeLane_wf _ _ _ _ h)),
    readByte_writeLane _ _ _ _ _ (writeLane_wf _ _ _ _ h), readByte_writeLane _ _ _ _ _ h]
  have hm : a % 4 = 0 ∨ a % 4 = 1 ∨ a % 4 = 2 ∨ a % 4 = 3 := by omega
  by_cases hw : a / 4 = wa
  · rcases hm with e | e | e | e <;>
      simp only [e, hw, true_and,
        show (a = 4 * wa + 0) = (a % 4 = 0) from propext (by omega), show (a = 4 * wa + 1) = (a % 4 = 1) from propext (by omega),
        show (a = 4 * wa + 2) = (a % 4 = 2) from propext (by omega), show (a = 4 * wa + 3) = (a % 4 = 3) from propext (by omega)] <;>
      simp
  · have n0 : ¬a = 4 * wa + 0 := by omega
    have n1 : ¬a = 4 * wa + 1 := by omega
    have n2 : ¬a = 4 * wa + 2 := by omega
    have n3 : ¬a = 4 * wa + 3 := by omega
    simp only [n0, n1, n2, n3, hw, false_and, if_false]

/-- The empty memory has the canonical form. -/
theorem Memory.wf_nil : Memory.wf [] = true := rfl

end Sys2Proof.Machine
end

