-- ==== Sys2Proof/Tests/Slice0.lean ====
section
/-! SUPPORT. The author's own tests: what well-formedness refuses, single commands against numbers that the spec's rules and
worked examples give, and for each statement with hypotheses a state and operands that meet them. -/

namespace Sys2Proof.Tests

open Sys2Proof Sys2Proof.Machine Sys2Proof.Config

-- In order: each theorem that waits for the kernel holds a thread, and a hundred at once run out of them.
set_option Elab.async false

/-! ## Small states -/

/-- The part after initialisation, with an empty script memory and nothing under way. -/
def ran : State := { State.reset with rst := { resetRst with phase := .running, supplyGood := true } }

/-- The part held in reset. -/
def held : State := State.reset

/-- The state a command leaves. -/
def after (c : Instr) (s : State) : State :=
  match exec c s with
  | .next t => t
  | _ => s

/-- A map of `n` rows whose row `r` holds slot `base + r`, story-first at the rows listed. -/
def mapOf (n base : Nat) (firsts : List Nat) : Bank :=
  ⟨(List.range n).map (fun r => ⟨base + r, 0, 1, .text, firsts.contains r⟩), 1, 0, 0⟩

/-- A boundary that only the scroll engine has still to take. -/
def stepDue (s : State) : State := s.withFtu { s.ftu with due := { noneDue with sce := true } }

/-- A link that has fired one action. -/
def fire (s : State) (l : Link) (a : Action) (st : LinkState) : State :=
  s.withLink l { s.hlr.get l with link := st, fired := [⟨a, .toggle, st == .active⟩] }

/-- A state whose helm is as given. -/
def helmed (s : State) (h : Option Claimant) (stack waiting : List Claimant) : State :=
  s.withHelm { s.helm with holder := h, stack := stack, waiting := waiting }

/-- An access in progress at the port. -/
def busy (s : State) (a : PortAccess) : State := s.withPort { s.port with busy := some a }

/-- An access of a requester's that a reset has left at the port. -/
def abandoned (o : Owner) (write : Bool) : State := busy ran ⟨o, write, 9, 0b0101, 0x01020304, true⟩

/-- A state in which OPERATOR's staged settings are these, and its silence counter stands at 2. -/
def staging (s : State) (l : List ClaimantUpdate) : State :=
  (s.withHelm { s.helm with staged := ⟨l, []⟩ }).withLink .operator { s.hlr.get .operator with silence := 2 }

/-- A handover that waits to be taken. -/
def handed (s : State) (h : Handover) : State := s.withPtp { s.ptp with handovers := [h] }

/-- A claimant's bytes on a hand link, 87 microseconds apart, from time 0. -/
def handBytesOf (bytes : List Byte) : List RxByte := bytes.zipIdx.map (fun b => ⟨87 * b.2, b.1, false⟩)

/-! ## Well-formedness refuses -/

theorem test_wf_structure : (Instr.structureWrite 0x4002 0xF 0).wf = false := by decide
theorem test_wf_content : (Instr.contentWrite 0x4001 0b0101 0).wf = false := by decide
theorem test_wf_commit : (Instr.commitWrite 0x4001 0b1011 0).wf = false := by decide
theorem test_wf_dropped_consume : (Instr.droppedWrite 0x422 0xF 0).wf = false := by decide
theorem test_wf_dropped_control : (Instr.droppedWrite 0x3FF 0xF 0).wf = false := by decide
theorem test_wf_presented : (Instr.accessPresented ⟨0, 0xF, 0, false, false⟩).wf = false := by decide
theorem test_wf_report_empty : (Instr.handReport .operator []).wf = false := by decide
theorem test_wf_report_order : (Instr.handReport .operator [⟨5, 0x5A, false⟩, ⟨4, 0, false⟩]).wf = false := by decide
theorem test_wf_ack_framing : (Instr.headAck .h0 [⟨5, 0xC3, true⟩]).wf = false := by decide
theorem test_wf_gap : (Instr.byteGap .operator [⟨0, 0x5A, false⟩, ⟨2000, 0, false⟩]).wf = false := by decide
theorem test_wf_framing : (Instr.framingError .operator [⟨0, 0x5A, false⟩]).wf = false := by decide
theorem test_wf_accepts : (Instr.structureWrite 0x800 0b0001 0).wf = true ∧ (Instr.contentWrite 0x4001 0b1000 0).wf = true ∧
    (Instr.commitWrite 0x4001 0b0100 0).wf = true ∧ (Instr.droppedWrite 0x421 0xF 0).wf = true := by decide

/-! ## The step and the table -/

/-- The table gives its rows no bits (spec/opcode_table.json). -/
theorem test_no_word : decodeTableWord 8 0 = none := by decide

/-- An empty queue idles (assumption 2). -/
theorem test_idle : step State.reset = .next State.reset := rfl

/-! ## Reset and initialisation (R176, R193) -/

theorem test_power_on : (after .powerOn ran).rst.phase = .held ∧ readyHigh (after .powerOn ran) = false := by decide +kernel
theorem test_power_good : (after .powerGood held).rst.phase = .windows ∧
    (after .powerGood held).port.busy = some ⟨.part .sru, true, 0, 0xF, 0, false⟩ := by decide +kernel
theorem test_pin_fall : (after (.resetPinFall 2) ran).rst.judging = some 32 := by decide +kernel
theorem test_master_reset : (after (.masterReset 32) (after (.resetPinFall 2) ran)).rst.cause = .pin := by decide +kernel
theorem test_pin_glitch : after (.resetPinRise 63) (after (.resetPinFall 2) ran) = ran := by decide +kernel
theorem test_initialisation : (after .initialisation (held.withRst ⟨.held, true, true, none, .pin, 0, 0⟩)).rst.phase = .windows :=
  by decide +kernel
theorem test_init_walk : (after .initWalkStart (ran.withRst ⟨.windows, true, false, none, .pin, 2048, 256⟩)).port.busy =
    some ⟨.part .sru, true, 0x440, 0xF, 1, false⟩ := by decide +kernel
theorem test_init_end : (after (.initEnd 600) (ran.withRst ⟨.ending, true, false, none, .pin, 2048, 256⟩)).ftu.substituteAt =
    some 20600 := by decide +kernel
/-- Window word 6 is the speed limit's, 8,192 at reset (R179, R194). -/
theorem test_sru_write : readWord (after .sruWriteDone (busy ((held.withRst ⟨.windows, true, false, none, .pin, 6, 256⟩).withSru
    { resetSru with request := some .initWord }) ⟨.part .sru, true, 6, 0xF, initialWord 6, false⟩)).mem 6 = 8192 := by
  decide +kernel
theorem test_guard_read : (after .guardReadDone (busy ((ran.withMem (writeWord [] 0x809 1 2)).withRst
    ⟨.windows, true, false, none, .pin, 2048, 4⟩) ⟨.part .ehu, false, 0x809, 0xF, 0, false⟩)).ehu.guardSet.getLsbD 4 = true :=
  by decide +kernel

/-! ## Frame timing (chapter 7.7) -/

def timed : State := ran.withFtu { resetFtu with
  micros := 167300, sync := .acquiring, goodCount := 7, frame := 108, lastBoundary := 160000, prevPulse := 147300
  substituteAt := some 180000, tickAt := 180000 }

/-- Tick 20 falls at 20,000 µs, whatever has been taken at that moment before it. -/
theorem test_ms_tick :
    let t := after .msTick (ran.withFtu { resetFtu with micros := 20000, tick := 19, tickAt := 20000 })
    t.ftu.micros = 20000 ∧ t.ftu.tick = 20 ∧ t.ftu.tickAt = 21000 := by decide +kernel
theorem test_fsync_locks :
    let t := after (.fsyncPulse 167300) timed
    t.ftu.sync = .locked ∧ t.ftu.frame = 108 ∧ t.ftu.lastBoundary = 167300 := by decide +kernel
theorem test_fsync_glitch :
    let t := after (.fsyncPulse 195000)
      (ran.withFtu { resetFtu with sync := .locked, lastBoundary := 187300, frame := 109 })
    t.ftu.glitches = 1 ∧ t.ftu.frame = 109 := by decide +kernel
theorem test_substitute :
    let t := after .substituteExpiry timed
    t.ftu.frame = 109 ∧ t.ftu.lastBoundary = 180000 ∧ t.ftu.substituteAt = some 200000 := by decide +kernel
theorem test_overdue :
    let t := after .overdueDeadline
      (ran.withFtu { resetFtu with sync := .locked, lastBoundary := 227300, frame := 111, tickAt := 250000 })
    t.ftu.frame = 112 ∧ t.ftu.lastBoundary = 249800 ∧ t.ftu.sync = .substitute := by decide +kernel
/-- A pulse taken first at the same moment makes the one boundary, and the part stays LOCKED (R134). -/
theorem test_overdue_pulse_first :
    let t := after .overdueDeadline (after (.fsyncPulse 249800)
      (ran.withFtu { resetFtu with sync := .locked, lastBoundary := 227300, frame := 111, tickAt := 250000 }))
    t.ftu.frame = 112 ∧ t.ftu.sync = .locked := by decide +kernel

/-! ## The scroll engine (chapters 3.5 and 4.7) -/

/-- The state of 3.5 before the boundary. -/
def lever : State :=
  stepDue (((((ran.withSce { resetSce with active := mapOf 40 100 [0], pos := 40000, speed := -200 }).withHelm
    { resetHelm with
      holder := some .presenter, lastDeflection := ⟨0, -53⟩
      inUse := ⟨resetClaimant .operator, { resetClaimant .presenter with scale := 20 }⟩ })).withLink .presenter
    { resetHlr with link := .active }))

theorem test_target : helmTarget lever = -683 := by decide +kernel
theorem test_frame_step : (after .frameStep lever).sce.pos = 39736 ∧ (after .frameStep lever).sce.speed = -264 := by
  decide +kernel
/-- V raised from 2,000 to 8,192 with AUTO set to 5,000: the target of that step is still limited to 2,000 (R54). -/
theorem test_frame_step_older_limit : (after .frameStep (stepDue (((helmed ran (some .auto) [] []).withSce
      { resetSce with active := mapOf 40 100 [0], pos := 40000, speed := 2000, speedLimit := 2000 }).withSru
    { resetSru with set := { resetSettings with autoSpeed := 5000, accel := 4000 } }))).sce.speed = 2000 := by decide +kernel
/-- Boundary 503 of 4.7. -/
theorem test_jump_step :
    let t := after .frameStep (stepDue (ran.withSce
      { resetSce with active := mapOf 24 900 [0, 6, 14, 20], pos := 35068, speed := 400, jump := some .nextStory }))
    t.sce.pos = 57344 ∧ t.sce.speed = 0 ∧ t.sce.jump = none := by decide +kernel
theorem test_mark : (after (.mark .presenter) (fire ((ran.withSce { resetSce with
      active := mapOf 24 900 [0, 6, 14, 20], pos := 34268 }).withFtu { resetFtu with frame := 500 })
      .presenter .mark .active)).sce.marks = [⟨908, 1500, .presenter, 500⟩] := by decide +kernel
/-- Taken before the step of boundary 501, a mark carries the number before it (R76). -/
theorem test_mark_before_step : (after (.mark .presenter) (fire ((ran.withSce { resetSce with
      active := mapOf 24 900 [0], pos := 34268 }).withFtu { resetFtu with frame := 501, due := allDue })
      .presenter .mark .active)).sce.marks.map (·.frame) = [500] := by decide +kernel
theorem test_return_mark : (after (.returnMark .operator) (fire (helmed ran (some .operator) [] [])
    .operator .returnMark .active)).sce.jump = some .returnMark := by decide +kernel
theorem test_next_story : (after (.nextStory .operator) (fire (helmed ran (some .operator) [] [])
    .operator .nextStory .active)).sce.jump = some .nextStory := by decide +kernel
theorem test_prev_story_ignored : (after (.prevStory .presenter) (fire (helmed ran (some .operator) [] [])
    .presenter .prevStory .active)).sce.jump = none := by decide +kernel

/-! ## The helm (chapter 6.10) -/

/-- Time t3: the operator takes the helm from the presenter, above AUTO. -/
theorem test_take :
    let t := after (.take .operator) (fire (helmed ran (some .presenter) [.auto] []) .operator .take .active)
    t.helm.holder = some .operator ∧ t.helm.stack = [.presenter, .auto] := by decide +kernel
/-- Time t8. -/
theorem test_release :
    let t := after (.release .operator)
      (fire (helmed ran (some .operator) [.presenter, .auto] []) .operator .release .active)
    t.helm.holder = some .presenter ∧ t.helm.stack = [.auto] := by decide +kernel
/-- Times t5 and t6. -/
theorem test_pause : (after (.pause .operator) (fire (helmed ran (some .operator) [] []) .operator .pause .active)).helm.paused =
      true ∧
    (after (.pause .presenter) (fire (helmed ran (some .operator) [.presenter] []) .presenter .pause .active)).helm.paused =
      false := by decide +kernel
theorem test_curve_load : (after .curveLoad ((ran.withFtu { resetFtu with due := { noneDue with helm := true } }).withSru
    { resetSru with set := { resetSettings with curveA := List.replicate 17 9 } })).helm.curveA = List.replicate 17 9 := by
  decide +kernel
/-- Time t7: an equal level does not preempt. -/
theorem test_level_write :
    let t := after .levelWrite (handed (helmed ran (some .operator) [.presenter, .auto] [])
      (.setting 0x34 3))
    t.sru.set.levelPresenter = 3 ∧ t.helm.holder = some .operator := by decide +kernel
/-- Chapter 6.10.1. -/
theorem test_helm_mode :
    let t := after .helmModeWrite (handed (helmed ran (some .operator) [.presenter, .auto] [])
      (.setting 0x2C 1))
    t.helm.stack = [] ∧ t.helm.waiting = [.presenter, .auto] := by decide +kernel
theorem test_auto_enable : (after .autoEnableWrite (handed ran (.setting 0x3C 7))).helm.holder = some .auto := by decide +kernel
/-- Time t4: staged for a suspended claimant. -/
theorem test_claimant_setting :
    let t := after .claimantSettingWrite
      (handed ((helmed ran (some .operator) [.presenter, .auto] []).withHelm
        { (helmed ran (some .operator) [.presenter, .auto] []).helm with staged := ⟨[], [.scale 24]⟩ }) (.setting 0xC8 20))
    t.helm.staged = ⟨[], [.scale 20]⟩ ∧ t.helm.inUse.presenter.scale = 16 := by decide +kernel

/-! ## Hand links (chapter 5.10) -/

theorem test_hand_report :
    let t := after (.handReport .presenter (handBytesOf [0x5A, 17, 0, 0, 0x95])) ran
    t.hlr.presenter.link = .suspect ∧ t.hlr.presenter.seq = some 17 ∧ t.hlr.presenter.rateCount = 1 ∧
      t.hlr.presenter.seqGaps = 0 := by decide +kernel
theorem test_byte_gap :
    let t := after (.byteGap .presenter [⟨0, 0x5A, false⟩, ⟨2001, 0x5A, false⟩]) ran
    t.hlr.presenter.checkErrors = 1 ∧ t.hlr.presenter.parser = [(2001, 0x5A)] := by decide +kernel
theorem test_framing_error :
    let t := after (.framingError .presenter [⟨0, 0x5A, false⟩, ⟨87, 0x5A, true⟩]) ran
    t.hlr.presenter.checkErrors = 1 ∧ t.hlr.presenter.parser = [] := by decide +kernel
theorem test_press_window : ((after (.pressWindowExpiry .operator 1) (ran.withLink .operator { resetHlr with
      buttons := [resetButton, ⟨true, 0, 1, some 0⟩] })).hlr.operator.buttons)[1]? = some ⟨true, 0, 0, none⟩ := by
  decide +kernel
/-- Time 100. -/
theorem test_rate_window :
    let t := after (.rateWindowEnd .presenter)
      (ran.withLink .presenter { resetHlr with link := .suspect, rateCount := 10, rateDue := true })
    t.hlr.presenter.link = .active ∧ t.hlr.presenter.tx = [0xA6, 0x40, 0x1A] := by decide +kernel
/-- Times 1,253 and 2,003. -/
theorem test_silence_coast :
    let t := after (.silenceTimerExpiry .presenter) ((helmed ran (some .presenter) [] []).withLink
      .presenter { resetHlr with link := .suspect, silence := 14, silenceTimer := some 50, silenceDue := true })
    t.helm.coast = true ∧ t.hlr.presenter.silence = 15 := by decide +kernel
theorem test_silence_lost :
    let t := after (.silenceTimerExpiry .presenter) ((helmed ran (some .presenter) [] []).withLink
      .presenter { resetHlr with link := .suspect, silence := 29, silenceTimer := some 50, silenceDue := true })
    t.hlr.presenter.link = .lost ∧ t.helm.holder = none ∧ t.helm.coast = false := by decide +kernel

/-! ## The rundown walker (chapter 1) -/

theorem test_structure_write :
    let t := after (.structureWrite 0x802 0xF 0) ran
    t.rwk.mapStale = true ∧ t.rwk.settle = .running 40 := by decide +kernel
theorem test_settle_expiry : (after .settleExpiry (ran.withRwk { resetWalker with mapStale := true, settle := .running 0 })).rwk.read =
    some (.entryWord 0) := by decide +kernel
/-- Slot 12 of 1.7: a CUE row that ends story 101. -/
theorem test_walk_read :
    let t := after .walkReadDone (busy ((ran.withMem (writeWord [] (slotAddr 12 1) 1 1)).withRwk
      { resetWalker with phase := .walking, read := some (.slotKind 0 101 12 0xFFFF true), bank := mapOf 2 10 [0] })
      ⟨.part .rwk, false, slotAddr 12 1, 0xF, 0, false⟩)
    (t.rwk.bank.rows)[2]? = some ⟨12, 0, 101, .cue, false⟩ ∧ t.rwk.read = some (.entryWord 1) := by decide +kernel

/-! ## Edit holding (chapter 2.8) -/

/-- Slots 517 (entry 4, GUARD) and 611 (entry 5) on air at time 10. -/
def onAir : State := (ran.withEhu { resetEhu with onAir := [⟨517, 4⟩, ⟨611, 5⟩], guardSet := BitVec.twoPow 256 4 }).withFtu
  { resetFtu with tick := 3 }

theorem test_content_write : (after (.contentWrite 0x80A2 0xF 0x11223344) onAir).ehu.queue =
    [⟨0x80A2, 0xF, 0x11223344, 517, 3, .held⟩] := by decide +kernel
theorem test_content_joins : (after (.contentWrite 0x80A2 0b1100 0xAABBCCDD) (onAir.withEhu { onAir.ehu with
      queue := [⟨0x80A2, 0xF, 0x11223344, 517, 3, .held⟩] })).ehu.queue =
    [⟨0x80A2, 0xF, 0xAABB3344, 517, 3, .held⟩] := by decide +kernel
theorem test_commit_write : (after (.commitWrite 0x8C61 0b0100 0x00120000) (onAir.withEhu { onAir.ehu with
      queue := [⟨0x80A2, 0xF, 1, 517, 3, .held⟩, ⟨0x8C62, 3, 1, 611, 6, .held⟩] })).ehu.queue.map (·.state) =
    [.held, .marked] := by decide +kernel
theorem test_ehu_boundary : (after .ehuBoundary ((onAir.withFtu { resetFtu with tick := 20, due := { noneDue with ehu := true } }).withEhu
      { onAir.ehu with queue := [⟨0x80A2, 0xF, 1, 517, 3, .held⟩, ⟨0x8C62, 3, 1, 611, 6, .marked⟩] })).ehu.queue.map (·.state) =
    [.held, .releasing] := by decide +kernel
theorem test_release_write :
    let t := after .releaseWriteDone (busy (onAir.withEhu { onAir.ehu with
      queue := [⟨0x8C62, 3, 0x11223344, 611, 6, .releasing⟩] }) ⟨.part .ehu, true, 0x8C62, 3, 0x11223344, false⟩)
    t.ehu.queue = [] ∧ readWord t.mem 0x8C62 = 0x3344 := by decide +kernel

/-- A full queue, all of it on its way to release. -/
def full : State := onAir.withEhu { onAir.ehu with
  queue := (List.range 64).map (fun i => ⟨slotAddr (20 + i / 30) (2 + i % 30), 0xF, 0, 20 + i / 30, 0, .releasing⟩) }

theorem test_spill_waits : (after (.contentWrite 0x80A2 0xF 1) full).ptp.carried =
    some ⟨⟨true, 0x80A2, 0xF, 1⟩, 0, .spill false, false⟩ := by decide +kernel
theorem test_spill_retry : (after .spillRetry (onAir.withPtp { resetPtp with
      carried := some ⟨⟨true, 0x80A2, 0xF, 7⟩, 0, .spill true, false⟩ })).ehu.queue =
    [⟨0x80A2, 0xF, 7, 517, 3, .held⟩] := by decide +kernel

/-! ## The prompt heads (chapter 8) -/

/-- Head 0 at the boundary at t = 0 of chapter 2.8, numbered 3,016. -/
def prompting : State := (((ran.withSce { resetSce with active := mapOf 40 100 [0], pos := 40960 }).withFtu
  { resetFtu with frame := 0x0BC8, due := { noneDue with hlt := ⟨true, false, false, false⟩ } }))

/-- Read row 10, read row on screen 3: T = 7, as 2.8 gives. -/
theorem test_hlt_frame : ((after (.hltFrame .h0) prompting).hlt.h0.sending).map (·.bytes) =
    some [0xF1, 12, 0xC8, 0x0B, 7, 0, 0, 0, 3, 12, 0, 0x1A] := by decide +kernel
theorem test_row_read : ((after .rowReadDone (busy ((ran.withMem (writeWord [] (slotAddr 5 1) 0xF 0x07000200)).withHead .h0
      { resetHlt .h0 with budgetLeft := 100, build := some ⟨0, .slot 5 .cue true, .header⟩ })
      ⟨.part (.hlt .h0), false, slotAddr 5 1, 0xF, 0, false⟩)).hlt.h0.build) =
    some ⟨0, .slot 5 .cue true, .text 7 2 []⟩ := by decide +kernel
theorem test_message_sent : ((after (.messageSent .h0) (ran.withHead .h0 { resetHlt .h0 with
      sending := some ⟨none, [1], false⟩, queued := [⟨some 4, [0xF2, 6, 4, 2, 0]⟩] })).hlt.h0.sending) =
    some ⟨some 4, [0xF2, 6, 4, 2, 0, 0x02], false⟩ := by decide +kernel
theorem test_head_ack :
    let t := after (.headAck .h1 ((([0xC3, 7, 0xC7, 0x0B, 0, 0, 0x64] : List Byte)).map (fun b => ⟨9, b, false⟩)))
      (ran.withHead .h1 { resetHlt .h1 with route := { resetRoute .h1 with source := .live }, state := .stalled, rejected := some 5 })
    t.hlt.h1.state = .up ∧ t.hlt.h1.lastAck = some 3015 ∧ t.hlt.h1.rejected = some 0 := by decide +kernel

/-- An ACK in UP, not ready, leaves the rows of the frame being built as they are and stales the next boundary's (R157). -/
theorem test_head_ack_not_ready :
    let t := after (.headAck .h0 ((([0xC3, 7, 1, 0, 5, 0, 0x30] : List Byte)).map (fun b => ⟨9, b, false⟩)))
      (ran.withHead .h0 { resetHlt .h0 with state := .up, rejected := some 5, todo := [4], view := [⟨some 1, true⟩] })
    t.hlt.h0.todo = [4] ∧ t.hlt.h0.view = [⟨some 1, false⟩] ∧ t.hlt.h0.staleDue = true := by decide +kernel

/-! ## The bus (chapter 9) -/

theorem test_presented_read : (after (.accessPresented ⟨0x420, 0xF, 0, false, true⟩) ran).port.busy =
    some ⟨.processor, false, 0x420, 0xF, 0, false⟩ := by decide +kernel
theorem test_dropped_write :
    let t := after (.droppedWrite 0x421 0xF 5) ran
    t.ptp.dropped = 1 ∧ t.port.busy = none ∧ readyHigh t = true := by decide +kernel
theorem test_processor_write :
    let t := after .processorWriteDone (busy (ran.withPtp { resetPtp with
      carried := some ⟨⟨true, 6, 0b0011, 0xFFFF0064⟩, 0b0011, .onPort, false⟩ }) ⟨.processor, true, 6, 0b0011, 0xFFFF0064, false⟩)
    t.ptp.handovers = [.setting 0x18 0x64] ∧ readyHigh t = true := by decide +kernel
/-- A withdrawn write of the edit mode ends, and the access behind it stands until the setting has been taken (R169, R186). -/
theorem test_withdrawn_setting :
    let t := after .processorWriteDone (busy (ran.withPtp { resetPtp with
      carried := some ⟨⟨true, 2, 0xF, 0⟩, 0xF, .onPort, true⟩, presented := some ⟨true, 0x80A2, 0xF, 1⟩ })
      ⟨.processor, true, 2, 0xF, 0, false⟩)
    t.ptp.carried = none ∧ t.ptp.presented.isSome = true ∧
      (after .settingWrite t).ptp.presented = none := by decide +kernel
/-- A held byte lies over memory's (R37). -/
theorem test_processor_read : (after .processorReadDone (busy (((onAir.withMem (writeWord [] 0x8C62 0xF 0xAAAAAAAA)).withEhu
      { onAir.ehu with queue := [⟨0x8C62, 3, 0x11223344, 611, 6, .held⟩] }).withPtp
      { resetPtp with carried := some ⟨⟨false, 0x8C62, 0xF, 0⟩, 0, .onPort, false⟩ })
      ⟨.processor, false, 0x8C62, 0xF, 0, false⟩)).ptp.readData = 0xAAAA3344 := by decide +kernel
theorem test_withdrawn : ((after .accessWithdrawn (busy (ran.withPtp { resetPtp with
      carried := some ⟨⟨false, 9, 0xF, 0⟩, 0, .onPort, false⟩ }) ⟨.processor, false, 9, 0xF, 0, false⟩)).ptp.carried).map
    (·.withdrawn) = some true := by decide +kernel
theorem test_hcs_rises : (after .hcsRises (ran.withPtp { resetPtp with
    carried := some ⟨⟨false, 9, 0xF, 0⟩, 0, .complete, false⟩ })).ptp.carried = none := by decide +kernel

/-! ## Settings, status and events (chapter 10) -/

theorem test_setting_write :
    let t := after .settingWrite (handed ran (.setting 0x1C 5000))
    t.sru.set.accel = 4095 ∧ t.sru.records = [⟨0, .settingClamped 0x1C 4095 5000, 0, 0⟩] := by decide +kernel
theorem test_guard_band : (after .guardBandWrite (handed ran (.setting 0xC 16))).sru.set.guardBand = 15 := by decide +kernel
theorem test_near_full : (after .nearFullThresholdWrite (handed full (.setting 0x14 64))).ehu.nearFull = true := by decide +kernel
theorem test_mask : irqLow (after .attentionMaskWrite (handed (ran.withSru { resetSru with
    latch := 0x010, set := { resetSettings with intEnable := true } }) (.setting 0x44 0xFEF))) = false := by decide +kernel
theorem test_int_enable : irqLow (after .interruptEnableWrite (handed (ran.withSru { resetSru with latch := 0x010 })
    (.setting 0x48 1))) = true := by decide +kernel
theorem test_route_write : (after .routeWrite (handed ran (.setting 0x204 4))).sru.set.routes.h0.readRow = 3 := by decide +kernel
theorem test_card_write : ((after .cardWrite (handed (ran.withHead .h2 { resetHlt .h2 with
      route := { resetRoute .h2 with source := .card1 }, view := [⟨some 0, true⟩, ⟨some 1, true⟩] }) (.card 1 1))).hlt.h2.view).map
    (·.sent) = [true, false] := by decide +kernel
theorem test_status : ((after .statusSnapshot ((ran.withSce { resetSce with pos := 77 }).withFtu
      { resetFtu with due := { noneDue with sru := true } })).sru.status).map (fun w => (w.words.length, w.words.getD 2 0)) =
    some (32, 77) := by decide +kernel
/-- Step 5 of 10.8: MAP is cleared, HEAD kept, LINK stays. -/
theorem test_attention_read : (after .attentionRead (handed (ran.withSru { resetSru with latch := 0x111, fresh := 0x110 })
    (.attention 0x101))).sru.latch = 0x110 := by decide +kernel
/-- The end of 10.8: 40 lies ahead of produce 34, and 20 lies 14 behind. -/
theorem test_consume : (after .consumeWrite (handed (ran.withSru { resetSru with produce := 34, consume := 2 })
      (.consume 40))).sru.consume = 34 ∧
    (after .consumeWrite (handed (ran.withSru { resetSru with produce := 34, consume := 2 }) (.consume 20))).sru.consume = 20 := by
  decide +kernel
/-- A record accepted while an attention write waits for the port is written before it (R203). -/
theorem test_record_first : (after .releaseWriteDone (busy ((onAir.withEhu { onAir.ehu with
      queue := [⟨0x8C62, 3, 1, 611, 6, .releasing⟩] }).withSru { resetSru with
      request := some .attention, attnReq := true, latch := 1, records := [⟨0, .reset .pin, 0, 0⟩], produce := 1 })
      ⟨.part .ehu, true, 0x8C62, 3, 1, false⟩)).sru.request = some .record := by decide +kernel
theorem test_run_reset :
    let t := after (.runReset false) (handed (onAir.withEhu { onAir.ehu with
      queue := [⟨0x8C62, 3, 1, 611, 6, .held⟩] }) (.setting 0 1))
    t.sru.runState = .running ∧ t.sru.resetLeft = 1 ∧ t.ehu.queue.map (·.state) = [.releasing] := by decide +kernel
theorem test_run_reset_done : (after .runResetDone (ran.withSru { resetSru with runState := .running })).port.busy =
    some ⟨.part .sru, true, 0x440, 0xF, 1, false⟩ := by decide +kernel

/-! ## Witnesses: for every statement with hypotheses, a state and operands that meet them together -/

theorem wit_StepTakesFrontCommand : ran.pending = [] := by decide

theorem wit_MasterResetBegins :
    (∃ (s : State) (f lowFor : Nat), s.rst.judging = some f ∧ f ≤ lowFor ∧ lowFor = 32) ∧
    (∃ (s : State) (f lowFor : Nat), s.rst.judging = some f ∧ lowFor < f ∧ lowFor = 31) ∧
    (∃ s : State, s.rst.judging = none) :=
  ⟨⟨after (.resetPinFall 2) ran, 32, 32, by decide +kernel⟩, ⟨after (.resetPinFall 2) ran, 32, 31, by decide +kernel⟩,
    ⟨ran, by decide⟩⟩

/-- A release in progress that has an entry and one that has none, an access of another owner, and what stands presented. -/
theorem wit_MasterResetBegins_access :
    (∃ (s : State) (a : PortAccess) (e : HoldEntry), s.port.busy = some a ∧ releaseInProgress a ∧
      s.ehu.queue.find? (fun x => x.wa == a.wa) = some e) ∧
    (∃ (s : State) (a : PortAccess), s.port.busy = some a ∧ releaseInProgress a ∧ ∀ e ∈ s.ehu.queue, e.wa ≠ a.wa) ∧
    (∃ (s : State) (a : PortAccess), s.port.busy = some a ∧ ¬releaseInProgress a) ∧
    (∃ (s : State) (a : Access), s.ptp.presented = some a) ∧
    (∀ gone : Bool, ∃ (s : State) (c : Carried), s.ptp.presented = none ∧ s.ptp.carried = some c ∧ c.withdrawn = gone) ∧
    (∃ s : State, s.ptp.presented = none ∧ s.ptp.carried = none) := by
  unfold releaseInProgress
  exact ⟨⟨busy (ran.withEhu { resetEhu with queue := [⟨0x8C62, 3, 1, 611, 6, .releasing⟩] })
      ⟨.part .ehu, true, 0x8C62, 1, 0, false⟩, _, _, rfl, by decide, rfl⟩,
    ⟨busy ran ⟨.part .ehu, true, 0x8C62, 1, 0, false⟩, _, rfl, by decide, fun _ h => nomatch h⟩,
    ⟨busy ran ⟨.processor, true, 9, 1, 0, false⟩, _, rfl, by decide⟩,
    ⟨ran.withPtp { resetPtp with presented := some ⟨false, 9, 0xF, 0⟩ }, _, rfl⟩,
    fun gone => ⟨ran.withPtp { resetPtp with carried := some ⟨⟨true, 9, 0xF, 7⟩, 0xF, .waiting, gone⟩ }, _, rfl, rfl, rfl⟩,
    ⟨ran, rfl, rfl⟩⟩

theorem wit_ResetPinJudged :
    (∃ s : State, s.rst.pinLow = false ∧ s.rst.phase ≠ .held) ∧ (∃ s : State, s.rst.pinLow = false ∧ s.rst.phase = .held) ∧
    (∃ (s : State) (f lowFor : Nat), s.rst.pinLow = true ∧ s.rst.phase ≠ .held ∧ s.rst.judging = some f ∧ lowFor < 2 * f ∧
      lowFor = 63) ∧
    (∃ (s : State) (f lowFor : Nat), s.rst.pinLow = true ∧ s.rst.judging = some f ∧ 2 * f ≤ lowFor ∧ lowFor = 64) :=
  ⟨⟨ran, by decide⟩, ⟨held, by decide⟩, ⟨after (.resetPinFall 2) ran, 32, 63, by decide +kernel⟩,
    ⟨after (.resetPinFall 2) ran, 32, 64, by decide +kernel⟩⟩

/-- The part at a phase of its start, with the words written and read so far. -/
def starting (phase : Phase) (words flags : Nat) : State := ran.withRst ⟨phase, true, false, none, .power, words, flags⟩

theorem wit_InitialisationSteps :
    (∃ s : State, s.rst.phase = .held ∧ s.rst.pinLow = false) ∧ (∃ s : State, s.rst.phase = .held ∧ s.rst.pinLow = true) ∧
    (∃ s : State, s.rst.phase = .held ∧ s.rst.judging = none ∧ s.rst.supplyGood = true) ∧
    (∃ s : State, s.rst.phase = .held ∧ s.rst.judging = none ∧ s.rst.supplyGood = false) ∧
    (∃ (s : State) (a : PortAccess), s.port.busy = some a ∧ a.owner = .part .ehu ∧ a.write = false ∧ a.orphan = false) ∧
    (∃ s : State, s.rst.phase = .windows ∧ s.rst.initWord = 2048 ∧ s.rst.guardNext = 256) ∧
    (∃ s : State, s.rst.initWord < 2048) ∧ (∃ s : State, s.rst.guardNext < 256) ∧
    (∃ s : State, s.rst.phase = .ending ∧ s.ptp.presented = none) ∧
    (∃ (s : State) (a : Access), s.rst.phase = .ending ∧ s.ptp.carried = none ∧ s.ptp.handovers = [] ∧
      s.ptp.presented = some a) :=
  ⟨⟨held, by decide⟩, ⟨held.withRst ⟨.held, true, true, none, .pin, 0, 0⟩, by decide⟩,
    ⟨held.withRst ⟨.held, true, true, none, .pin, 0, 0⟩, by decide⟩, ⟨held, by decide⟩,
    ⟨busy ran ⟨.part .ehu, false, 0x801, 0xF, 0, false⟩, _, rfl, by decide⟩, ⟨starting .windows 2048 256, by decide⟩,
    ⟨starting .windows 2047 256, by decide⟩, ⟨starting .windows 2048 255, by decide⟩,
    ⟨starting .ending 2048 256, by decide⟩,
    ⟨(starting .ending 2048 256).withPtp { resetPtp with presented := some ⟨false, 9, 0xF, 0⟩ }, _, by decide, rfl, rfl, rfl⟩⟩

theorem wit_InitialisationSteps_abandoned : MemOk (abandoned (.part .ehu) false) ∧
    ∃ a, (abandoned (.part .ehu) false).port.busy = some a ∧ a.owner = .part .ehu ∧ a.write = false ∧ a.orphan = true :=
  ⟨rfl, _, rfl, rfl, rfl, rfl⟩

/-- The SRU with an access in progress, four words of its oldest record performed. -/
def writing (phase : Phase) (k : SruAccess) (words : Nat) : State :=
  busy ((starting phase words 256).withSru { resetSru with
    request := some k, recordWord := 4, status := some ⟨[], 31⟩ }) ⟨.part .sru, true, 9, 0xF, 5, false⟩

theorem wit_SruWritePerformed :
    (∀ k : SruAccess, ∃ (s : State) (a : PortAccess), MemOk s ∧ s.port.busy = some a ∧ a.owner = .part .sru ∧ a.write = true ∧
      a.orphan = false ∧ s.sru.request = some k ∧ (∃ w, s.sru.status = some w) ∧ 4 ≤ s.sru.recordWord ∧
      s.rst.phase = .running) ∧
    (∃ s : State, s.rst.phase = .windows ∧ s.sru.request = some .initWord) ∧
    (∃ s : State, s.rst.phase = .firstRecord ∧ s.sru.request = some .record ∧ 4 ≤ s.sru.recordWord) ∧
    (∃ s : State, s.rst.phase = .firstAttention ∧ s.sru.request = some .attention) ∧
    (∃ s : State, s.sru.request = some .record ∧ s.sru.recordWord < 4) ∧
    (∃ (s : State) (a : PortAccess), MemOk s ∧ s.port.busy = some a ∧ a.owner = .part .sru ∧ a.write = true ∧
      a.orphan = true) :=
  ⟨fun k => ⟨writing .running k 0, _, rfl, rfl, rfl, rfl, rfl, rfl, ⟨_, rfl⟩, Nat.le_refl 4, rfl⟩,
    ⟨writing .windows .initWord 2047, by decide⟩, ⟨writing .firstRecord .record 2048, by decide⟩,
    ⟨writing .firstAttention .attention 2048, by decide⟩,
    ⟨ran.withSru { resetSru with request := some .record, recordWord := 3 }, by decide⟩,
    ⟨busy ran ⟨.part .sru, true, 9, 0xF, 5, true⟩, _, rfl, rfl, by decide⟩⟩

/-- The SRU with these things waiting to be written. -/
def waitingWrites (phase : Phase) (records : List Record) (attn zero : Bool) (status : Option StatusWrite) : State :=
  (starting phase 2048 256).withSru { resetSru with records := records, attnReq := attn, zeroDue := zero, status := status }

/-- Each turn of the order, the one before it having nothing to write; and the phases of initialisation. -/
theorem wit_SruWritePerformed_order :
    (let s := waitingWrites .running [⟨0, .reset .run, 0, 0⟩] true true none; reporting s ∧ s.sru.records ≠ []) ∧
    (let s := waitingWrites .ending [] true true none; reporting s ∧ s.sru.records = [] ∧ s.sru.attnReq = true) ∧
    (let s := waitingWrites .running [] false true none; s.sru.attnReq = false ∧ s.sru.zeroDue = true) ∧
    (let s := waitingWrites .running [] false false (some ⟨[], 31⟩); s.sru.zeroDue = false ∧ s.sru.status ≠ none) ∧
    (let s := waitingWrites .running [] false false none; s.sru.zeroDue = false ∧ s.sru.status = none) ∧
    (∀ p : Phase, (waitingWrites p [] false false none).rst.phase = p) ∧
    (holdsPort ran .sru = false ∧ ran.sru.request = none) ∧
    (∃ s : State, holdsPort s .sru = false ∧ s.sru.request = some .attention) ∧
    holdsPort (writing .running .record 0) .sru = true ∧
    (∃ s : State, s.sru.request ≠ none ∧ s.sru.request ≠ some .attention) := by
  unfold reporting
  exact ⟨by decide, by decide, by decide, by decide, by decide, fun _ => rfl, by decide,
    ⟨ran.withSru { resetSru with request := some .attention }, by decide⟩, by decide,
    ⟨ran.withSru { resetSru with request := some .record }, by decide⟩⟩

theorem wit_MsTickCounts : ∃ s : State, s.rst.phase ≠ .held ∧ s.rwk.settle = .running 1 ∧
    (s.hlr.get .operator).rateTimer = some 1 ∧ (s.hlr.get .presenter).rateTimer = some (0 + 2) ∧
    (s.hlr.get .operator).silenceTimer = none ∧ (s.hlr.get .presenter).silenceTimer = some 1 :=
  ⟨(ran.withRwk { resetWalker with settle := .running 1 }).withHlr
    ⟨{ resetHlr with rateTimer := some 1 }, { resetHlr with rateTimer := some 2, silenceTimer := some 1 }⟩, by decide⟩

/-- Both sides of the present millisecond, for the timer and for the deadline. -/
theorem wit_TimedBoundaries :
    (∃ (s : State) (n : Nat), s.ftu.substituteAt = some n ∧ n = max s.ftu.micros s.ftu.tickAt) ∧
    (∃ s : State, (∀ n, s.ftu.substituteAt = some n → max s.ftu.micros s.ftu.tickAt < n) ∧
      s.ftu.substituteAt = some (max s.ftu.micros s.ftu.tickAt + 1)) ∧ ran.ftu.substituteAt = none ∧
    (∃ s : State, s.ftu.sync = .locked ∧
      s.ftu.lastBoundary + s.ftu.nominal + s.ftu.nominal / 8 = max s.ftu.micros s.ftu.tickAt) ∧
    (∃ s : State, s.ftu.sync = .locked ∧
      max s.ftu.micros s.ftu.tickAt + 1 = s.ftu.lastBoundary + s.ftu.nominal + s.ftu.nominal / 8) ∧ ran.ftu.sync ≠ .locked :=
  ⟨⟨timed, 180000, by decide⟩,
    ⟨timed.withFtu { timed.ftu with substituteAt := some 180001 }, fun n h => by cases h; decide, by decide⟩, rfl,
    ⟨ran.withFtu { resetFtu with sync := .locked, tickAt := 22500 }, by decide⟩,
    ⟨ran.withFtu { resetFtu with sync := .locked, micros := 22499 }, by decide⟩, by decide⟩

/-- A receiver of pulses at the good-period count `n`, its last boundary at `b` and its last pulse at 100,000. -/
def pulsed (sync : SyncState) (n b : Nat) : State :=
  ran.withFtu { resetFtu with sync := sync, goodCount := n, lastBoundary := b, prevPulse := 100000 }

/-- The greatest good period, the least that is not, both ends of the half period at the lock, and both sides of the least
interval in LOCKED. -/
theorem wit_FsyncPulses :
    (∃ s : State, s.rst.phase = .running ∧ s.ftu.sync = .substitute) ∧
    (∃ (s : State) (now : Nat), s.rst.phase = .running ∧ s.ftu.sync = .acquiring ∧ now = 122501 ∧
      min 65535 (max s.ftu.micros now - s.ftu.prevPulse) = s.ftu.nominal + s.ftu.nominal / 8 + 1) ∧
    (∃ (s : State) (now : Nat), s.rst.phase = .running ∧ s.ftu.sync = .acquiring ∧ s.ftu.goodCount < 7 ∧
      min 65535 (max s.ftu.micros now - s.ftu.prevPulse) = s.ftu.nominal + s.ftu.nominal / 8) ∧
    (∃ (s : State) (now : Nat), s.rst.phase = .running ∧ s.ftu.sync = .acquiring ∧ s.ftu.goodCount = 7 ∧
      min 65535 (max s.ftu.micros now - s.ftu.prevPulse) = s.ftu.nominal - s.ftu.nominal / 8 ∧
      s.ftu.nominal = 2 * min 65535 (max s.ftu.micros now - s.ftu.lastBoundary)) ∧
    (∃ (s : State) (now : Nat), s.rst.phase = .running ∧ s.ftu.sync = .acquiring ∧ s.ftu.goodCount = 7 ∧
      min 65535 (max s.ftu.micros now - s.ftu.prevPulse) = s.ftu.nominal - s.ftu.nominal / 8 ∧
      2 * min 65535 (max s.ftu.micros now - s.ftu.lastBoundary) = s.ftu.nominal - 2) ∧
    (∃ (s : State) (now : Nat), s.rst.phase = .running ∧ s.ftu.sync = .locked ∧
      min 65535 (max s.ftu.micros now - s.ftu.lastBoundary) = s.ftu.nominal - s.ftu.nominal / 8) ∧
    (∃ (s : State) (now : Nat), s.rst.phase = .running ∧ s.ftu.sync = .locked ∧
      min 65535 (max s.ftu.micros now - s.ftu.lastBoundary) + 1 = s.ftu.nominal - s.ftu.nominal / 8) :=
  ⟨⟨ran, by decide⟩, ⟨pulsed .acquiring 3 100000, 122501, by decide⟩, ⟨pulsed .acquiring 6 100000, 122500, by decide⟩,
    ⟨pulsed .acquiring 7 107500, 117500, by decide⟩, ⟨pulsed .acquiring 7 107501, 117500, by decide⟩,
    ⟨pulsed .locked 8 100000, 117500, by decide⟩, ⟨pulsed .locked 8 100000, 117499, by decide⟩⟩

theorem wit_PositionAndFrameWriters : ∃ (c : Instr) (s t : State), ¬mayReset c ∧ c ≠ .frameStep ∧
    (∀ late, c ≠ .runReset late) ∧ exec c s = .next t :=
  ⟨.substituteExpiry, timed, _, fun h => h, by decide, fun _ h => (nomatch h), rfl⟩

theorem wit_RampRule : (∃ (v t : Int), v = 0 ∨ (0 < v * t ∧ v.natAbs < t.natAbs)) ∧
    (∃ (v t : Int), ¬(v = 0 ∨ (0 < v * t ∧ v.natAbs < t.natAbs)) ∧ t < v) ∧
    (∃ (v t : Int), ¬(v = 0 ∨ (0 < v * t ∧ v.natAbs < t.natAbs)) ∧ v < t) :=
  ⟨⟨1, 2, by decide⟩, ⟨1, 0, by decide⟩, ⟨-1, 1, by decide⟩⟩

/-! The scroll engine. -/

/-- A step due on a map, with AUTO holding at a set speed the ramp reaches at once. -/
def moving (b : Bank) (pos : Nat) (speed : Int) : State :=
  stepDue ((((helmed ran (some .auto) [] []).withSce { resetSce with active := b, pos := pos, speed := speed }).withSru
    { resetSru with set := { resetSettings with autoSpeed := speed } }))

/-- A map of three rows, the second a STOP row. -/
def stopMap : Bank := ⟨[⟨7, 0, 1, .text, true⟩, ⟨8, 0, 1, .stop, false⟩, ⟨9, 0, 1, .text, false⟩], 1, 0, 0⟩

theorem moving_ready (b : Bank) (pos : Nat) (speed : Int) : stepReady (moving b pos speed) := ⟨rfl, rfl, rfl, rfl⟩

theorem wit_FrameStepMoves :
    (∃ s : State, plainStep s ∧ 0 ≤ (s.sce.pos : Int) + nextSpeed s ∧
      (s.sce.pos : Int) + nextSpeed s = pMax s.sce.active.rows ∧ nextSpeed s = 64 ∧
      ∀ i, ¬crosses s i s.sce.pos (s.sce.pos + nextSpeed s)) ∧
    (∃ s : State, stepReady s ∧ s.rwk.phase ≠ .offered ∧ s.sce.active.rows = []) := by
  refine ⟨⟨moving (mapOf 3 7 [0]) 8128 64, ⟨moving_ready _ _ _, by decide, by decide, by decide⟩, by decide +kernel,
    by decide +kernel, by decide +kernel, ?_⟩, ⟨moving emptyBank 0 0, moving_ready _ _ _, by decide, by decide⟩⟩
  rintro i ⟨-, -, r, hr, hk⟩
  match i, hr with
  | 0, hr => cases hr; cases hk
  | 1, hr => cases hr; cases hk
  | 2, hr => cases hr; cases hk

/-- A CLEAR taken together with a step that reaches a STOP row leaves the flag clear, taken before the step or after it (R118). -/
theorem test_pause_clear_at_stop :
    let clear (s : State) : State := after (.pause .operator) (s.withLink .operator
      { s.hlr.get .operator with fired := [⟨.pause, .clear, true⟩] })
    let s := (moving stopMap 4000 64).withHelm { (moving stopMap 4000 64).helm with holder := some .operator, paused := true }
    let s := s.withSce { s.sce with speed := 400 }
    (clear (after .frameStep s)).helm.paused = false ∧ (after .frameStep (clear s)).helm.paused = false ∧
    (after .frameStep (clear s)).sce.stopReached = some 8 ∧ (after .frameStep s).helm.paused = true := by decide +kernel
/-- A CLEAR before the boundary does not come together with its step: the STOP row pauses (R60). -/
theorem test_pause_clear_before :
    (after .frameStep (moving stopMap 4032 64)).helm.paused = true ∧
    (after (.pause .operator) ((helmed ran (some .operator) [] []).withLink .operator
      { resetHlr with fired := [⟨.pause, .clear, true⟩] })).helm.cleared = false := by decide +kernel

theorem wit_FrameStepLimits :
    (∃ (s : State) (i : Nat) (r : Row), plainStep s ∧ s.sce.active.rows[i]? = some r ∧
      crosses s i s.sce.pos (s.sce.pos + nextSpeed s) ∧ s.sce.pos + nextSpeed s = (4096 * i : Nat) ∧
      (∀ j, j < i → ¬crosses s j s.sce.pos (s.sce.pos + nextSpeed s))) ∧
    (∃ s : State, plainStep s ∧ (s.sce.pos : Int) + nextSpeed s = -1 ∧ s.sce.pos ≠ 0) ∧
    (∃ s : State, plainStep s ∧ (s.sce.pos : Int) + nextSpeed s < 0 ∧ s.sce.pos = 0) ∧
    (∃ s : State, plainStep s ∧ s.sce.pos + nextSpeed s = (pMax s.sce.active.rows : Int) + 1 ∧
      (∀ i, ¬crosses s i s.sce.pos (s.sce.pos + nextSpeed s))) := by
  have ready (b : Bank) (p : Nat) (v : Int) (h : b.rows ≠ []) : plainStep (moving b p v) :=
    ⟨moving_ready _ _ _, (by decide : WalkPhase.idle ≠ .offered), h, rfl⟩
  refine ⟨⟨moving stopMap 4032 64, 1, _, ready _ _ _ (by decide), rfl, ⟨by decide, by decide +kernel, _, rfl, rfl⟩,
    by decide +kernel, ?_⟩, ⟨moving stopMap 63 (-64), ready _ _ _ (by decide), by decide +kernel, by decide⟩,
    ⟨moving stopMap 0 (-64), ready _ _ _ (by decide), by decide +kernel, by decide⟩,
    ⟨moving (mapOf 3 7 [0]) 8129 64, ready _ _ _ (by decide), by decide +kernel, ?_⟩⟩
  · rintro j hj ⟨-, -, r, hr, hk⟩
    match j, hr with
    | 0, hr => cases hr; cases hk
  · rintro i ⟨-, -, r, hr, hk⟩
    match i, hr with
    | 0, hr => cases hr; cases hk
    | 1, hr => cases hr; cases hk
    | 2, hr => cases hr; cases hk

/-- A step due with a jump asked for and marks set. -/
def jumping (j : Jump) (marks : List Mark) : State :=
  stepDue (ran.withSce { resetSce with active := mapOf 24 900 [0, 6, 14, 20], pos := 35068, jump := some j, marks := marks })

theorem wit_JumpResolved :
    (∀ j : Jump, ∃ s : State, stepReady s ∧ s.rwk.phase ≠ .offered ∧ s.sce.active.rows ≠ [] ∧ s.sce.jump = some j) ∧
    (∃ (s : State) (older : List Mark) (m : Mark) (k : Nat) (r : Row), stepReady s ∧ s.rwk.phase ≠ .offered ∧
      s.sce.jump = some .returnMark ∧ s.sce.marks = older ++ [m] ∧ (s.sce.active.rows.map (·.slot)).Nodup ∧
      s.sce.active.rows[k]? = some r ∧ r.slot = m.slot) ∧
    (∃ s : State, s.rwk.phase ≠ .offered ∧ s.sce.active.rows ≠ [] ∧ s.sce.jump = some .returnMark ∧ s.sce.marks = [] ∧
      s.ftu.due.sce = true ∧ s.ftu.due.helm = false ∧ s.ftu.due.ehu = false) :=
  ⟨fun j => ⟨jumping j [], ⟨rfl, rfl, rfl, rfl⟩, (by decide : WalkPhase.idle ≠ .offered),
      (by decide : (mapOf 24 900 [0, 6, 14, 20]).rows ≠ []), rfl⟩,
    ⟨jumping .returnMark [⟨914, 64, .operator, 504⟩], [], _, 14, _, ⟨rfl, rfl, rfl, rfl⟩, by decide, rfl, rfl,
      by decide, rfl, rfl⟩, ⟨jumping .returnMark [], by decide⟩⟩

theorem wit_StoryTargets :
    (∃ (rows : List Row) (i n : Nat), i < n ∧ firstAt rows n = true ∧ (∀ m, i < m → m < n → firstAt rows m = false)) ∧
    (∃ (rows : List Row) (i : Nat), ∀ n, i < n → firstAt rows n = false) ∧
    (∃ (rows : List Row) (n : Nat) (v : Int) (i : Nat), stopRow rows (4096 * n) (4096 * n + v) = some i) ∧
    (∃ (rows : List Row) (i c : Nat), c < i ∧ firstAt rows c = true ∧ (∀ m, c < m → m ≤ i → firstAt rows m = false)) ∧
    (∃ (rows : List Row) (c p : Nat), firstAt rows c = true ∧ p < c ∧ firstAt rows p = true ∧
      (∀ m, p < m → m < c → firstAt rows m = false)) ∧
    (∃ (rows : List Row) (c : Nat), firstAt rows c = true ∧ (∀ p, p < c → firstAt rows p = false)) := by
  refine ⟨⟨(mapOf 3 0 [0, 1]).rows, 0, 1, by decide, by decide, by omega⟩, ⟨[], 0, fun n _ => rfl⟩,
    ⟨stopMap.rows, 0, 4096, 1, by decide⟩, ⟨(mapOf 3 0 [0]).rows, 1, 0, by decide, by decide, ?_⟩,
    ⟨(mapOf 3 0 [0, 1]).rows, 1, 0, by decide, by decide, by decide, by omega⟩,
    ⟨(mapOf 3 0 [0]).rows, 0, by decide, by omega⟩⟩
  intro m h1 h2
  obtain rfl : m = 1 := by omega
  decide

/-- Rows of these slots. -/
def rowsOf (slots : List Nat) : List Row := slots.map (fun n => ⟨n, 0, 1, .text, false⟩)

theorem wit_AnchorRule :
    (∃ (old new : List Row) (pos : Nat) (a : Row) (j : Nat), old[pos / 4096]? = some a ∧ firstIndex new a.slot j) ∧
    (∃ (old new : List Row) (pos k : Nat) (a r : Row) (j : Nat), old[pos / 4096]? = some a ∧ absent new a.slot ∧
      pos / 4096 < k ∧ old[k]? = some r ∧ firstIndex new r.slot j ∧
      ∀ (m : Nat) (q : Row), pos / 4096 < m → m < k → old[m]? = some q → absent new q.slot) ∧
    (∃ (old new : List Row) (pos k : Nat) (a r : Row) (j : Nat), old[pos / 4096]? = some a ∧ absent new a.slot ∧
      k < pos / 4096 ∧ old[k]? = some r ∧ firstIndex new r.slot j ∧
      ∀ (m : Nat) (q : Row), k < m → old[m]? = some q → absent new q.slot) ∧
    (∃ (old new : List Row) (pos : Nat) (a : Row), old[pos / 4096]? = some a ∧
      ∀ (m : Nat) (q : Row), old[m]? = some q → absent new q.slot) := by
  have first (n : Nat) : firstIndex (rowsOf [n]) n 0 := ⟨⟨_, rfl, rfl⟩, by omega⟩
  have gone (n m : Nat) (h : n ≠ m) : absent (rowsOf [n]) m := by simp [absent, rowsOf, h]
  refine ⟨⟨rowsOf [1, 2], rowsOf [2], 4096, _, 0, rfl, first 2⟩,
    ⟨rowsOf [1, 2], rowsOf [2], 4095, 1, _, _, 0, rfl, gone 2 1 (by decide), by decide, rfl, first 2, by omega⟩,
    ⟨rowsOf [1, 2], rowsOf [1], 4096, 0, _, _, 0, rfl, gone 1 2 (by decide), by decide, rfl, first 1, ?_⟩,
    ⟨rowsOf [1, 2], [], 0, _, rfl, by simp [absent]⟩⟩
  intro m q hm hq
  match m, hq with
  | 1, hq => cases hq; exact gone 1 2 (by decide)

/-- A map offered at a boundary, over an old map of one row. -/
def offering (new : Bank) (stale : Bool) : State :=
  (moving (mapOf 1 7 [0]) 0 0).withRwk { resetWalker with phase := .offered, bank := new, mapStale := stale, settle := .elapsed }

theorem wit_InstallationTaken :
    (∃ s : State, stepReady s ∧ s.rwk.phase = .offered ∧ s.rwk.mapStale = true ∧ s.rwk.settle = .elapsed ∧
      s.rwk.bank.rows = []) ∧
    (∃ s : State, stepReady s ∧ s.rwk.phase = .offered ∧ s.rwk.mapStale = false ∧ s.sce.jump = none ∧ s.rwk.bank.rows ≠ [] ∧
      s.helm.holder = none ∧ s.sce.speed = 0) :=
  ⟨⟨offering emptyBank true, ⟨rfl, rfl, rfl, rfl⟩, by decide⟩,
    ⟨helmed (offering (mapOf 2 7 [0]) false) none [] [], ⟨rfl, rfl, rfl, rfl⟩, by decide⟩⟩

/-- A mark fired at row 0 of a one-row map, with `n` marks set on other slots. -/
def marking (st : LinkState) (n : Nat) : State :=
  fire (ran.withSce { resetSce with
    active := mapOf 1 7 [0], marks := (List.range n).map (fun i => ⟨100 + i, 0, .operator, 0⟩) }) .presenter .mark st

theorem wit_MarkSet :
    (∃ (s : State) (q : Qualifier) (rest : List Fired), (s.hlr.get .presenter).fired = ⟨.mark, q, true⟩ :: rest ∧
      s.sce.active.rows ≠ [] ∧ (s.sce.marks.filter (fun m => m.slot != slotAt s.sce.active.rows (s.sce.pos / 4096))).length = 7) ∧
    (∃ (s : State) (q : Qualifier) (rest : List Fired) (oldest : Mark) (others : List Mark),
      (s.hlr.get .presenter).fired = ⟨.mark, q, true⟩ :: rest ∧ s.sce.active.rows ≠ [] ∧
      s.sce.marks.filter (fun m => m.slot != slotAt s.sce.active.rows (s.sce.pos / 4096)) = oldest :: others ∧
      (oldest :: others).length = 8) ∧
    (∃ (s : State) (f : Fired) (rest : List Fired), (s.hlr.get .presenter).fired = f :: rest ∧ f.action = .mark ∧
      f.linkActive = false) :=
  ⟨⟨marking .active 7, _, _, rfl, by decide, by decide⟩, ⟨marking .active 8, _, _, _, _, rfl, by decide, rfl, rfl⟩,
    ⟨marking .suspect 0, _, _, rfl, rfl, rfl⟩⟩

/-! The rundown walker. -/

/-- The last entry, and the one before it. -/
theorem wit_ChainTests : (∀ i ∈ [254, 255], ∃ slot : Nat, slot = 0xFFFF ∧ (i < 255 ∨ i = 255)) ∧
    (∃ slot : Nat, 65024 ≤ slot ∧ slot < 0xFFFF ∧ slot = 0xFFFE) ∧
    (∃ (x : Walker) (slot : Nat), slot < 65024 ∧ x.seen.getLsbD slot = true) ∧
    (∃ (x : Walker) (slot : Nat), slot < 65024 ∧ x.seen.getLsbD slot = false) :=
  ⟨fun i hi => ⟨0xFFFF, rfl, by simp only [List.mem_cons, List.not_mem_nil, or_false] at hi; omega⟩, ⟨0xFFFE, by decide⟩,
    ⟨{ resetWalker with seen := BitVec.twoPow 65024 0 }, 0, by decide +kernel⟩, ⟨resetWalker, 65023, by decide +kernel⟩⟩

/-- A walk read of a word that holds `w`, in progress. -/
def walking (r : WalkRead) (w : Word) (b : Bank) : State :=
  busy ((ran.withMem (writeWord [] 9 0xF w)).withRwk { resetWalker with phase := .walking, read := some r, bank := b })
    ⟨.part .rwk, false, 9, 0xF, 0, false⟩

/-- What every clause of WalkReadTaken asks. -/
def walkReads (s : State) (a : PortAccess) (r : WalkRead) : Prop :=
  s.port.busy = some a ∧ a.owner = .part .rwk ∧ a.write = false ∧ a.orphan = false ∧ s.rwk.read = some r

theorem wit_WalkReadTaken :
    (∃ s a i, walkReads s a (.entryWord i) ∧ i < 255 ∧ loHalf (readWord s.mem a.wa) = 0) ∧
    (∃ s a i, walkReads s a (.entryWord i) ∧ loHalf (readWord s.mem a.wa) ≠ 0) ∧
    (∃ s a i story slot, walkReads s a (.entryFlags i story slot) ∧ i < 255 ∧ (readWord s.mem a.wa).getLsbD 0 = true) ∧
    (∃ s a i story slot, walkReads s a (.entryFlags i story slot) ∧ i < 255 ∧ (readWord s.mem a.wa).getLsbD 0 = false ∧
      ∃ q ∈ s.rwk.bank.rows, q.story = story) ∧
    (∃ s a i story slot, walkReads s a (.entryFlags i story slot) ∧ (readWord s.mem a.wa).getLsbD 0 = false ∧
      ∀ q ∈ s.rwk.bank.rows, q.story ≠ story) ∧
    (∃ s a i story slot placed, walkReads s a (.slotWord i story slot placed) ∧ loHalf (readWord s.mem a.wa) = story) ∧
    (∃ s a i story slot placed, walkReads s a (.slotWord i story slot placed) ∧ i < 255 ∧
      loHalf (readWord s.mem a.wa) ≠ story) ∧
    (∃ s a i story slot next placed, walkReads s a (.slotKind i story slot next placed) ∧ laneOf (readWord s.mem a.wa) 0 = 4) ∧
    (∀ code ∈ [(0 : Word), 1, 2, 3, 5, 255], ∃ s a i story slot next placed, walkReads s a (.slotKind i story slot next placed) ∧
      laneOf (readWord s.mem a.wa) 0 = laneOf code 0 ∧ laneOf code 0 ≠ 4 ∧ s.rwk.bank.rows.length < 8192) ∧
    (∃ s a i story slot next placed, walkReads s a (.slotKind i story slot next placed) ∧
      laneOf (readWord s.mem a.wa) 0 ≠ 4 ∧ 8192 ≤ s.rwk.bank.rows.length) := by
  have reads (r : WalkRead) (w : Word) (b : Bank) : walkReads (walking r w b) ⟨.part .rwk, false, 9, 0xF, 0, false⟩ r :=
    ⟨rfl, rfl, rfl, rfl, rfl⟩
  refine ⟨⟨walking (.entryWord 254) 0 emptyBank, _, _, reads .., by decide, by decide⟩,
    ⟨walking (.entryWord 255) 1 emptyBank, _, _, reads .., by decide⟩,
    ⟨walking (.entryFlags 254 1 5) 1 emptyBank, _, _, _, _, reads .., by decide, by decide⟩,
    ⟨walking (.entryFlags 254 1 5) 2 (mapOf 1 7 [0]), _, _, _, _, reads .., by decide, by decide, _, List.mem_singleton.mpr rfl, rfl⟩,
    ⟨walking (.entryFlags 255 2 5) 2 (mapOf 1 7 [0]), _, _, _, _, reads .., by decide, by decide⟩,
    ⟨walking (.slotWord 255 1 5 false) 1 emptyBank, _, _, _, _, _, reads .., by decide⟩,
    ⟨walking (.slotWord 254 2 5 false) 1 emptyBank, _, _, _, _, _, reads .., by decide, by decide⟩,
    ⟨walking (.slotKind 255 2 5 6 false) 4 emptyBank, _, _, _, _, _, _, reads .., by decide⟩,
    fun code h => ⟨walking (.slotKind 255 2 5 6 false) code emptyBank, _, _, _, _, _, _, reads .., by
      simp only [List.mem_cons, List.not_mem_nil, or_false] at h
      obtain rfl | rfl | rfl | rfl | rfl | rfl := h <;> decide⟩,
    ⟨walking (.slotKind 255 2 5 6 false) 5 ⟨List.replicate 8192 ⟨5, 0, 1, .text, true⟩, 1, 0, 0⟩, _, _, _, _, _, _,
      reads .., by decide, ?_⟩⟩
  show 8192 ≤ (List.replicate 8192 _).length
  rw [List.length_replicate]

theorem wit_WalkReadTaken_abandoned : MemOk (abandoned (.part .rwk) false) ∧
    ∃ a, (abandoned (.part .rwk) false).port.busy = some a ∧ a.owner = .part .rwk ∧ a.write = false ∧ a.orphan = true :=
  ⟨rfl, _, rfl, rfl, rfl, rfl⟩

theorem wit_WalkEndsAndStarts :
    (∃ x : Walker, x.rewalk = true ∧ x.discards < 4 ∧ x.mapStale = true ∧ x.discards = 3) ∧
    (∃ x : Walker, x.rewalk = true ∧ 4 ≤ x.discards ∧ x.discards = 4) ∧
    (∃ s : State, s.rwk.settle = .running 0 ∧ s.rwk.phase = .idle ∧ s.rwk.mapStale = true) ∧
    (∃ s : State, s.rwk.settle = .running 0 ∧ s.rwk.phase ≠ .idle) ∧ (∃ s : State, s.rwk.settle ≠ .running 0) :=
  ⟨⟨{ resetWalker with rewalk := true, mapStale := true, discards := 3 }, by decide⟩,
    ⟨{ resetWalker with rewalk := true, discards := 4 }, by decide⟩,
    ⟨ran.withRwk { resetWalker with mapStale := true, settle := .running 0 }, by decide⟩,
    ⟨ran.withRwk { resetWalker with phase := .walking, settle := .running 0 }, by decide⟩, ⟨ran, by decide⟩⟩

theorem wit_StructureWriteTaken :
    (∃ c a s, presentsWrite c a ∧ readyToTake s ∧ structureAccess a.ha a.be = true ∧ 0 < s.sru.set.settle ∧
      contentAccess a.ha a.be = false ∧ commitAccess a.ha a.be = false) ∧
    (∃ c a s, presentsWrite c a ∧ readyToTake s ∧ structureAccess a.ha a.be = true ∧ s.sru.set.settle = 0 ∧
      s.rwk.phase = .idle) ∧
    (∃ c a s, presentsWrite c a ∧ readyToTake s ∧ structureAccess a.ha a.be = true ∧ s.sru.set.settle = 0 ∧
      s.rwk.phase = .walking) :=
  ⟨⟨.structureWrite 0x4001 1 2, ⟨true, 0x4001, 1, 2⟩, ran, ⟨rfl, .inl rfl⟩, ⟨rfl, rfl, rfl⟩, by decide, by decide, by decide, by decide⟩,
    ⟨.structureWrite 0x9FF 8 2, ⟨true, 0x9FF, 8, 2⟩, ran.withSru { resetSru with set := { resetSettings with settle := 0 } },
      ⟨rfl, .inl rfl⟩, ⟨rfl, rfl, rfl⟩, by decide, rfl, rfl⟩,
    ⟨.structureWrite 0x800 1 2, ⟨true, 0x800, 1, 2⟩, (ran.withSru { resetSru with set := { resetSettings with settle := 0 } }).withRwk
      { resetWalker with phase := .walking }, ⟨rfl, .inl rfl⟩, ⟨rfl, rfl, rfl⟩, by decide, rfl, rfl⟩⟩

/-! Edit holding. -/

/-- The on-air slots of 2.8 with a queue of 63 entries of other slots. -/
def nearly : State := onAir.withEhu { onAir.ehu with
  queue := (List.range 63).map (fun i => ⟨slotAddr (20 + i / 30) (2 + i % 30), 0xF, 0, 20 + i / 30, 0, .held⟩) }

/-- Slot 517 shelters and slot 611 is batched. -/
theorem onAir_holds : holding onAir 517 ∧ batched onAir 611 ∧ ¬batched onAir 517 ∧ ¬holding onAir 9 := by
  refine ⟨⟨⟨517, 4⟩, by decide, .inl (by decide)⟩, ⟨⟨611, 5⟩, by decide, by decide, by decide⟩, ?_, ?_⟩
  · rintro ⟨o, h, h1, -⟩
    cases h
    revert h1
    decide
  · rintro ⟨o, h, -⟩
    cases h

theorem wit_LineWritesDecided :
    (∃ c a s, presentsWrite c a ∧ readyToTake s ∧ contentAccess a.ha a.be = true ∧ ∃ e ∈ s.ehu.queue, e.wa = a.ha.toNat) ∧
    (∃ c a s, presentsWrite c a ∧ readyToTake s ∧ contentAccess a.ha a.be = true ∧
      (¬∃ e ∈ s.ehu.queue, e.wa = a.ha.toNat) ∧ holding s (slotOf a.ha.toNat) ∧ s.ehu.queue.length = 63 ∧
      commitAccess a.ha a.be = true ∧ batched s (slotOf a.ha.toNat)) ∧
    (∃ c a s, presentsWrite c a ∧ readyToTake s ∧ contentAccess a.ha a.be = true ∧
      (¬∃ e ∈ s.ehu.queue, e.wa = a.ha.toNat) ∧ holding s (slotOf a.ha.toNat) ∧ s.ehu.queue.length = 64 ∧
      ∀ e ∈ s.ehu.queue, e.state = .releasing) ∧
    (∃ c a s, presentsWrite c a ∧ readyToTake s ∧ contentAccess a.ha a.be = true ∧
      (¬∃ e ∈ s.ehu.queue, e.wa = a.ha.toNat) ∧ ¬holding s (slotOf a.ha.toNat)) ∧
    (∃ c a s, presentsWrite c a ∧ readyToTake s ∧ commitAccess a.ha a.be = true ∧ contentAccess a.ha a.be = false ∧
      batched s (slotOf a.ha.toNat)) ∧
    (∃ c a s, presentsWrite c a ∧ readyToTake s ∧ commitAccess a.ha a.be = true ∧ contentAccess a.ha a.be = false ∧
      ¬batched s (slotOf a.ha.toNat)) ∧
    (∀ gone : Bool, ∃ (s : State) (a : Access) (l : Lanes), s.ptp.carried = some ⟨a, l, .spill true, gone⟩ ∧ a.write = true ∧
      contentAccess a.ha a.be = true) ∧
    (∃ (s : State) (a : Access) (l : Lanes) (w : Bool), s.ptp.carried = some ⟨a, l, .spill false, w⟩) :=
  ⟨⟨.contentWrite 0x80A2 1 2, ⟨true, 0x80A2, 1, 2⟩, onAir.withEhu { onAir.ehu with
      queue := [⟨0x80A2, 0xF, 0, 517, 3, .held⟩] }, ⟨rfl, .inr (.inl rfl)⟩, ⟨rfl, rfl, rfl⟩, by decide, _,
      List.mem_singleton.mpr rfl, by decide⟩,
    ⟨.contentWrite 0x8C61 6 2, ⟨true, 0x8C61, 6, 2⟩, nearly, ⟨rfl, .inr (.inl rfl)⟩, ⟨rfl, rfl, rfl⟩, by decide,
      by decide +kernel, ⟨⟨611, 5⟩, by decide, .inr (by decide)⟩, by decide, by decide, onAir_holds.2.1⟩,
    ⟨.contentWrite 0x80A2 1 2, ⟨true, 0x80A2, 1, 2⟩, full, ⟨rfl, .inr (.inl rfl)⟩, ⟨rfl, rfl, rfl⟩, by decide,
      by decide +kernel, onAir_holds.1, by decide, by decide +kernel⟩,
    ⟨.contentWrite 0x4122 1 2, ⟨true, 0x4122, 1, 2⟩, onAir, ⟨rfl, .inr (.inl rfl)⟩, ⟨rfl, rfl, rfl⟩, by decide,
      by decide, onAir_holds.2.2.2⟩,
    ⟨.commitWrite 0x8C61 4 2, ⟨true, 0x8C61, 4, 2⟩, onAir, ⟨rfl, .inr (.inr (.inl rfl))⟩, ⟨rfl, rfl, rfl⟩, by decide, by decide,
      onAir_holds.2.1⟩,
    ⟨.commitWrite 0x80A1 4 2, ⟨true, 0x80A1, 4, 2⟩, onAir, ⟨rfl, .inr (.inr (.inl rfl))⟩, ⟨rfl, rfl, rfl⟩, by decide, by decide,
      onAir_holds.2.2.1⟩,
    fun gone => ⟨onAir.withPtp { resetPtp with carried := some ⟨⟨true, 0x80A2, 0xF, 7⟩, 0, .spill true, gone⟩ }, _, _, rfl, rfl,
      by decide⟩,
    ⟨after (.contentWrite 0x80A2 0xF 1) full, ⟨true, 0x80A2, 0xF, 1⟩, 0, false, by decide +kernel⟩⟩

/-- The spill's oldest slot, behind a releasing entry. -/
theorem wit_LineWritesDecided_spill : ∃ (s : State) (a : Access) (older newer : List HoldEntry) (o : HoldEntry),
    readyToTake s ∧ contentAccess a.ha a.be = true ∧ (¬∃ e ∈ s.ehu.queue, e.wa = a.ha.toNat) ∧
    holding s (slotOf a.ha.toNat) ∧ 64 ≤ s.ehu.queue.length ∧ s.ehu.queue = older ++ o :: newer ∧
    (∀ e ∈ older, e.state = .releasing) ∧ o.state ≠ .releasing :=
  ⟨onAir.withEhu { onAir.ehu with queue := ⟨slotAddr 30 2, 0xF, 0, 30, 0, .releasing⟩ :: nearly.ehu.queue },
    ⟨true, 0x80A2, 1, 2⟩, [⟨slotAddr 30 2, 0xF, 0, 30, 0, .releasing⟩], nearly.ehu.queue.tail, ⟨slotAddr 20 2, 0xF, 0, 20, 0, .held⟩,
    ⟨rfl, rfl, rfl⟩, by decide, by decide +kernel, onAir_holds.1, by decide, by decide +kernel, by decide, by decide⟩

/-- A release in progress while a write waits for the spill. -/
def releasing : State :=
  busy ((onAir.withEhu { onAir.ehu with queue := [⟨0x8C62, 3, 0x11223344, 611, 6, .releasing⟩] }).withPtp
    { resetPtp with carried := some ⟨⟨true, 0x80A2, 0xF, 7⟩, 0, .spill false, false⟩ })
    ⟨.part .ehu, true, 0x8C62, 3, 0x11223344, false⟩

theorem wit_ReleasePerformed :
    (∃ (s : State) (a : PortAccess) (e : HoldEntry), MemOk s ∧ s.port.busy = some a ∧ a.owner = .part .ehu ∧ a.write = true ∧
      a.orphan = false ∧ s.ehu.queue.find? (fun x => x.wa == a.wa) = some e ∧
      ∃ acc l b w, s.ptp.carried = some ⟨acc, l, .spill b, w⟩) ∧
    (∃ s : State, ∀ k ∈ s.ptp.carried, ∀ b, k.stage ≠ .spill b) :=
  ⟨⟨releasing, _, _, rfl, rfl, rfl, rfl, rfl, rfl, _, _, _, _, rfl⟩, ⟨onAir, fun _ h => nomatch h⟩⟩

theorem wit_ReleasePerformed_abandoned : MemOk (abandoned (.part .ehu) true) ∧
    ∃ a, (abandoned (.part .ehu) true).port.busy = some a ∧ a.owner = .part .ehu ∧ a.write = true ∧ a.orphan = true :=
  ⟨rfl, _, rfl, rfl, rfl, rfl⟩

/-- An entry at the hold limit to the millisecond. -/
theorem wit_EhuBoundaryReleases : ∃ (s : State) (e : HoldEntry), s.ftu.due.ehu = true ∧ s.sru.set.holdLimit ≠ 0 ∧
    e ∈ s.ehu.queue ∧ e.state = .held ∧ (s.ftu.tick - e.arrival).toNat = 1000 * s.sru.set.holdLimit :=
  ⟨(onAir.withFtu { resetFtu with tick := 30003, due := { noneDue with ehu := true } }).withEhu
    { onAir.ehu with queue := [⟨0x80A2, 0xF, 1, 517, 3, .held⟩] }, ⟨0x80A2, 0xF, 1, 517, 3, .held⟩, by decide⟩

/-- Two LIVE heads about a row in the middle of a map: the window reaches 5 rows up and 11 down; a slot that leaves the
list. -/
theorem wit_EhuBoundaryReleases_list :
    (∃ (routes : List Route) (rows : List Row) (row above below : Nat), row < rows.length ∧
      (∀ r ∈ routes, r.readRow ≤ above ∧ r.rows - r.readRow ≤ below) ∧ (∃ r ∈ routes, r.readRow = above) ∧
      (∃ r ∈ routes, r.rows - r.readRow = below) ∧ above = 5 ∧ below = 11) ∧
    (∃ (x : Ehu) (new : List OnAir) (e : HoldEntry), e ∈ x.queue ∧ (∃ a ∈ x.onAir, a.slot = e.slot) ∧ ∀ a ∈ new, a.slot ≠ e.slot) :=
  ⟨⟨[{ resetRoute .h0 with readRow := 1 }, { resetRoute .h0 with readRow := 5 }], (mapOf 40 100 [0]).rows, 20, 5, 11, by decide⟩,
    ⟨{ onAir.ehu with queue := [⟨0x80A2, 0xF, 1, 517, 3, .held⟩] }, [⟨611, 5⟩], ⟨0x80A2, 0xF, 1, 517, 3, .held⟩, by decide⟩⟩

/-! The invariants. -/

/-- A state in which every part of the invariants has something to say: rows, a walk, a mark, a held word whose release is in progress,
the helm held over a suspended claimant, a waiting record, and the attention word as the latch is. -/
def rich : State :=
  busy ((((((helmed ran (some .operator) [.presenter] [.auto]).withRwk { resetWalker with
      phase := .walking, read := some (.slotWord 3 1 12 true), bank := mapOf 1 20 [0]
      seen := BitVec.twoPow 65024 20 }).withSce { resetSce with
      active := mapOf 3 7 [0], pos := 5000, speed := 100, marks := [⟨8, 17, .operator, 3⟩] }).withEhu { resetEhu with
      queue := [⟨0x8C62, 3, 0x11223344, 611, 6, .releasing⟩] }).withSru { resetSru with
      set := { resetSettings with autoEnable := true }
      latch := 0x400, produce := 5, consume := 3, records := [⟨4, .reset .run, 0, 0⟩], runState := .running }).withMem
      (writeWord [] 0x420 0xF 0x400)) ⟨.part .ehu, true, 0x8C62, 3, 0x11223344, false⟩

theorem wit_PositionAndMarksInvariant : PositionOk rich ∧ MarksOk rich ∧ ∃ t, exec .releaseWriteDone rich = .next t := by
  unfold PositionOk MarksOk
  exact ⟨by decide +kernel, by decide +kernel, _, rfl⟩

theorem wit_MapInvariant : MapOk rich ∧ ∃ t, exec .releaseWriteDone rich = .next t := by
  unfold MapOk bankOk
  refine ⟨⟨by decide, by decide, by decide +kernel, fun r hr => ?_⟩, _, rfl⟩
  cases hr
  unfold readOk
  exact ⟨rfl, by decide +kernel⟩

theorem wit_PartKeepsProcessorView : ¬processorsOwn .releaseWriteDone ∧ MemOk rich ∧ HoldOk rich ∧ PortOk rich ∧ ReleaseOk rich ∧
    (∀ a ∈ rich.port.busy, a.owner = .part .ehu → a.write = true → a.orphan = false) ∧
    (∃ t, exec .releaseWriteDone rich = .next t) ∧ rundownBase ≤ 0x8C62 := by
  unfold MemOk HoldOk entryOk PortOk accessOk processorMayWrite ReleaseOk
  refine ⟨fun h => h, by decide +kernel, ⟨by decide, by decide, by decide, fun _ h => nomatch h⟩,
    ⟨fun a h => ?_, (fun _ h => nomatch h), by decide, fun _ h => nomatch h⟩, by decide +kernel, by decide, ⟨_, rfl⟩, by decide⟩
  cases h
  decide

theorem wit_PartKeepsProcessorView_taking : ¬processorsOwn .settingWrite ∧ takesStanding .settingWrite ∧ rich.ptp.presented = none :=
  ⟨fun h => h, trivial, rfl⟩

theorem wit_MemoryAndHoldInvariant : MemOk rich ∧ HoldOk rich ∧ ReleaseOk rich ∧ ∃ t, exec .releaseWriteDone rich = .next t :=
  ⟨wit_PartKeepsProcessorView.2.1, wit_PartKeepsProcessorView.2.2.1, wit_PartKeepsProcessorView.2.2.2.2.1, _, rfl⟩

theorem wit_HelmInvariant : HelmOk rich ∧ ∃ t, exec .releaseWriteDone rich = .next t := by
  unfold HelmOk
  exact ⟨by decide, _, rfl⟩

theorem wit_PortInvariant : HoldOk rich ∧ PortOk rich ∧ FairnessOk rich ∧ ∃ t, exec .releaseWriteDone rich = .next t :=
  ⟨wit_PartKeepsProcessorView.2.2.1, wit_PartKeepsProcessorView.2.2.2.1, by unfold FairnessOk; decide, _, rfl⟩

theorem wit_SettingsAndRingInvariant : SettingsOk rich ∧ RingOk rich ∧ FreshOk rich ∧ RunOk rich ∧
    ∃ t, exec .releaseWriteDone rich = .next t := by
  unfold SettingsOk routeOk RingOk FreshOk RunOk
  exact ⟨by decide +kernel, ⟨by decide, by decide, trivial⟩, by decide, by decide, _, rfl⟩

theorem wit_AttentionInvariant : MemOk rich ∧ HoldOk rich ∧ PortOk rich ∧ AttentionOk rich ∧
    ∃ t, exec .releaseWriteDone rich = .next t := by
  refine ⟨wit_PartKeepsProcessorView.2.1, wit_PartKeepsProcessorView.2.2.1, wit_PartKeepsProcessorView.2.2.2.1, ?_, _, rfl⟩
  unfold AttentionOk attentionInFlight
  exact ⟨by decide, fun _ => ⟨by decide, by decide, fun _ _ => by decide +kernel⟩⟩

/-! The hand links. -/

/-- The presenter's link in a state, with the sequence number last taken. -/
def linked (st : LinkState) : State := ran.withLink .presenter { resetHlr with link := st, seq := some 16 }

/-- Bytes 2,000 microseconds apart; a link that is found, a claim on the move, and one refused. -/
theorem wit_HandReportTaken :
    (∃ (t0 t1 t2 t3 t4 : Nat), t0 ≤ t1 ∧ t1 = t0 + 2000 ∧ t1 ≤ t2 ∧ t2 = t1 + 2000 ∧ t2 ≤ t3 ∧ t3 = t2 + 2000 ∧ t3 ≤ t4 ∧
      t4 = t3 + 2000) ∧
    (∃ (s : State) (n d b k : Byte), s.rst.phase = .running ∧ (s.hlr.get .presenter).parser = [] ∧ 0x5A + n + d + b + k = 0 ∧
      (s.hlr.get .presenter).link = .absent ∧ ¬movesOut s .presenter (max (-127) d.toInt) ∧ (s.hlr.get .presenter).seq = none) ∧
    (∃ (s : State) (n d b k : Byte), s.rst.phase = .running ∧ (s.hlr.get .presenter).parser = [] ∧ 0x5A + n + d + b + k = 0 ∧
      movesOut s .presenter (max (-127) d.toInt) ∧ (s.hlr.get .presenter).link = .active ∧ s.helm.holder = none ∧
      (s.hlr.get .presenter).seq = some 16) ∧
    (∃ (s : State) (n d b k : Byte), s.rst.phase = .running ∧ (s.hlr.get .presenter).parser = [] ∧ 0x5A + n + d + b + k = 0 ∧
      movesOut s .presenter (max (-127) d.toInt) ∧ (s.hlr.get .presenter).link ≠ .active) ∧
    (∀ h ∈ [Claimant.auto, .operator], ∃ (s : State) (n d b k : Byte), s.rst.phase = .running ∧
      (s.hlr.get .presenter).parser = [] ∧ 0x5A + n + d + b + k = 0 ∧ movesOut s .presenter (max (-127) d.toInt) ∧
      (s.hlr.get .presenter).link = .active ∧ s.helm.holder = some h ∧ (outranks s h .presenter ↔ h = .auto)) := by
  unfold movesOut outranks
  refine ⟨⟨0, 2000, 4000, 6000, 8000, by decide⟩, ⟨ran, 17, 3, 0, 0x92, by decide⟩, ⟨linked .active, 17, 4, 0, 0x91, by decide⟩,
    ⟨linked .suspect, 17, 4, 0, 0x91, by decide⟩, ?_⟩
  intro h hh
  simp only [List.mem_cons, List.not_mem_nil, or_false] at hh
  obtain rfl | rfl := hh
  · exact ⟨helmed (linked .active) (some .auto) [] [], 17, 4, 0, 0x91, by decide⟩
  · exact ⟨helmed (linked .active) (some .operator) [] [], 17, 4, 0, 0x91, by decide⟩

/-- With K = 2: below the second differing bit, at it without and with a qualifying edge, and a second press of two. -/
theorem wit_ButtonRule :
    (∃ (c : ClaimantSettings) (x : Hlr) (k : Button) (e : ButtonEntry), x.buttons[1]? = some k ∧ c.buttons[1]? = some e ∧
      true ≠ k.pressed ∧ k.agree + 1 < c.debounce) ∧
    (∃ (c : ClaimantSettings) (x : Hlr) (k : Button) (e : ButtonEntry), x.buttons[1]? = some k ∧ c.buttons[1]? = some e ∧
      true ≠ k.pressed ∧ c.debounce = k.agree + 1 ∧ e.edge = .press ∧ e.action ≠ .none ∧ e.count = 2 ∧ k.presses = 0) ∧
    (∃ (c : ClaimantSettings) (x : Hlr) (k : Button) (e : ButtonEntry), x.buttons[1]? = some k ∧ c.buttons[1]? = some e ∧
      true ≠ k.pressed ∧ c.debounce = k.agree + 1 ∧ e.edge = .press ∧ e.action ≠ .none ∧ e.count = k.presses + 1) ∧
    (∃ (c : ClaimantSettings) (x : Hlr) (k : Button) (e : ButtonEntry), x.buttons[1]? = some k ∧ c.buttons[1]? = some e ∧
      false ≠ k.pressed ∧ c.debounce = k.agree + 1 ∧ e.edge = .press) ∧
    (∃ (c : ClaimantSettings) (x : Hlr) (k : Button) (e : ButtonEntry), x.buttons[1]? = some k ∧ c.buttons[1]? = some e ∧
      true = k.pressed) :=
  ⟨⟨resetClaimant .presenter, resetHlr, resetButton, ⟨.mark, .press, 2⟩, by decide⟩,
    ⟨resetClaimant .presenter, { resetHlr with buttons := List.replicate 8 ⟨false, 1, 0, none⟩ }, _, ⟨.mark, .press, 2⟩, rfl,
      by decide⟩,
    ⟨resetClaimant .presenter, { resetHlr with buttons := List.replicate 8 ⟨false, 1, 1, some 9⟩ }, _, ⟨.mark, .press, 2⟩, rfl,
      by decide⟩,
    ⟨resetClaimant .presenter, { resetHlr with buttons := List.replicate 8 ⟨true, 1, 0, none⟩ }, _, ⟨.mark, .press, 2⟩, rfl,
      by decide⟩,
    ⟨resetClaimant .presenter, { resetHlr with buttons := List.replicate 8 ⟨true, 1, 0, none⟩ }, _, ⟨.mark, .press, 2⟩, rfl,
      by decide⟩⟩

/-- A receiver that has stored these bytes at time 100. -/
def storing (bytes : List Byte) : State := ran.withLink .operator { resetHlr with parser := bytes.map (fun b => (100, b)) }

theorem wit_BrokenReports :
    (∃ (s : State) (late : Nat), s.rst.phase = .running ∧ (s.hlr.get .operator).parser ≠ [] ∧
      lastTime (s.hlr.get .operator).parser + 2000 + 1 = late) ∧
    (∃ (s : State) (time : Nat), s.rst.phase = .running ∧ (s.hlr.get .operator).parser ≠ [] ∧
      time = lastTime (s.hlr.get .operator).parser + 2000) ∧
    (∃ (s : State) (b0 b1 b2 b3 : Nat × Byte) (time : Nat) (k : Byte), s.rst.phase = .running ∧
      (s.hlr.get .operator).parser = [b0, b1, b2, b3] ∧ time = b3.1 + 2000 ∧ b0.2 + b1.2 + b2.2 + b3.2 + k ≠ 0) ∧
    (∃ s : State, s.rst.phase = .running ∧ (s.hlr.get .operator).parser = []) :=
  ⟨⟨storing [0x5A], 2101, by decide⟩, ⟨storing [0x5A], 2100, by decide⟩,
    ⟨storing [0x5A, 0x5A, 3, 4], (100, 0x5A), (100, 0x5A), (100, 3), (100, 4), 2100, 0, by decide⟩, ⟨ran, by decide⟩⟩

/-- The presenter's silence timer expired at a count, its claimant as the helm has it. -/
def silent (s : State) (n : Nat) : State :=
  s.withLink .presenter { resetHlr with link := .suspect, silence := n, silenceTimer := some 50, silenceDue := true }

/-- The silence limit is 30. -/
theorem wit_ReceiverTimers :
    (∃ (s : State) (k : Button), (s.hlr.get .operator).buttons[1]? = some k ∧ k.window = some 0) ∧
    (∃ (s : State) (k : Button), (s.hlr.get .operator).buttons[1]? = some k ∧ k.window ≠ some 0) ∧
    (∃ s : State, (s.hlr.get .presenter).rateDue = true) ∧
    (∃ s : State, (s.hlr.get .presenter).silenceDue = true ∧
      min 80 ((s.hlr.get .presenter).silence + 1) + 1 = (s.helm.inUse.get .presenter).silenceLimit) ∧
    (∀ c ∈ [ClaimState.idle, .holding, .pending, .suspended], ∃ s : State, (s.hlr.get .presenter).silenceDue = true ∧
      (s.hlr.get .presenter).link = .suspect ∧
      (s.helm.inUse.get .presenter).silenceLimit = min 80 ((s.hlr.get .presenter).silence + 1) ∧
      claimState s.helm .presenter = c) := by
  refine ⟨⟨ran.withLink .operator { resetHlr with buttons := List.replicate 8 ⟨true, 0, 1, some 0⟩ }, _, rfl, rfl⟩,
    ⟨ran, _, rfl, by decide⟩, ⟨ran.withLink .presenter { resetHlr with rateDue := true }, rfl⟩, ⟨silent ran 28, by decide⟩, ?_⟩
  intro c hc
  simp only [List.mem_cons, List.not_mem_nil, or_false] at hc
  obtain rfl | rfl | rfl | rfl := hc
  · exact ⟨silent ran 29, by decide⟩
  · exact ⟨silent (helmed ran (some .presenter) [] []) 29, by decide⟩
  · exact ⟨silent (helmed ran (some .operator) [] [.presenter]) 29, by decide⟩
  · exact ⟨silent (helmed ran (some .operator) [.presenter] []) 29, by decide⟩

/-! The helm. -/

/-- The dead zone's last magnitude and the first beyond it, both ways, and AUTO's set speed at and beyond V. -/
theorem wit_TargetSpeedRule :
    (∃ s : State, s.helm.holder = none) ∧
    (∀ d ∈ [(3 : Int), 4, -4], ∃ s : State, s.helm.holder = some (claimantOf .presenter) ∧ s.helm.paused = false ∧
      s.helm.coast = false ∧ 0 < rowCount s ∧ (s.hlr.get .presenter).link = .active ∧
      (s.helm.inUse.get .presenter).deadZone = 3 ∧ s.helm.lastDeflection.get .presenter = d) ∧
    (∀ v ∈ [(-8193 : Int), -8192, 8192, 8193], ∃ s : State, s.helm.holder = some .auto ∧ s.helm.paused = false ∧
      s.helm.coast = false ∧ 0 < rowCount s ∧ s.sce.speedLimit = 8192 ∧ s.sru.set.autoSpeed = v) :=
  ⟨⟨ran, rfl⟩, fun d _ => ⟨lever.withHelm { lever.helm with lastDeflection := ⟨0, d⟩ }, rfl, rfl, rfl, Nat.zero_lt_succ 39, rfl, rfl, rfl⟩,
    fun v _ => ⟨moving (mapOf 1 7 [0]) 0 v, rfl, rfl, rfl, Nat.zero_lt_succ 0, rfl, rfl⟩⟩

theorem wit_SuccessorRule : ∃ (s : State) (d c : Claimant), HelmOk s ∧ successor s = some d ∧ c ≠ d ∧ c ∈ s.helm.stack ∧
    d ∈ s.helm.stack ∧ levelOf s.sru.set c = levelOf s.sru.set d := by
  refine ⟨(helmed ran (some .operator) [.presenter, .auto] []).withSru { resetSru with
    set := { resetSettings with levelAuto := 2, autoEnable := true } }, .presenter, .auto, ?_⟩
  unfold HelmOk
  decide

/-- A TAKE of the operator from a link in a state, the helm as given. -/
def taking (st : LinkState) (h : Option Claimant) (stack : List Claimant) : State :=
  fire (helmed ran h stack []) .operator .take st

/-- Level 3 against the presenter's 2, and against the same level. -/
theorem wit_TakeJudged :
    (∀ s ∈ [taking .suspect none [], taking .active (some .operator) [], taking .active none [],
        taking .active (some .presenter) []], ∃ q a rest, (s.hlr.get .operator).fired = ⟨.take, q, a⟩ :: rest) ∧
    ((taking .suspect none []).hlr.get .operator).link ≠ .active ∧
    claimState (taking .active (some .operator) []).helm .operator ≠ .idle ∧
    claimState (taking .active none []).helm .operator = .idle ∧
    (let s := taking .active (some .presenter) []
     claimState s.helm .operator = .idle ∧ s.sru.set.helmMode = .nest ∧
        levelOf s.sru.set .presenter < levelOf s.sru.set .operator) ∧
    (∃ s : State, (s.hlr.get .operator).fired.length = 1 ∧ (s.hlr.get .operator).link = .active ∧
      claimState s.helm .operator = .idle ∧ s.helm.holder = some .presenter ∧ s.sru.set.helmMode = .nest ∧
      levelOf s.sru.set .operator = levelOf s.sru.set .presenter ∧ ∀ n, .silenceLimit n ∉ s.helm.staged.get .operator) := by
  refine ⟨?_, by decide, by decide, by decide, by decide, ⟨(taking .active (some .presenter) []).withSru { resetSru with
    set := { resetSettings with levelPresenter := 3 } }, by decide, by decide, by decide, by decide, by decide, by decide,
    fun _ h => nomatch h⟩⟩
  intro s hs
  simp only [List.mem_cons, List.not_mem_nil, or_false] at hs
  obtain rfl | rfl | rfl | rfl := hs <;> exact ⟨_, _, _, rfl⟩

/-- With nothing staged the list is the receiver's only change; with a silence limit staged it need not be. -/
theorem wit_TakeJudged_staged : ∀ staged ∈ [[], [ClaimantUpdate.silenceLimit 2]],
    let s := (staging (taking .active (some .presenter) []) staged).withSru { resetSru with
      set := { resetSettings with levelPresenter := 3 } }
    (s.hlr.get .operator).fired.length = 1 ∧ (s.hlr.get .operator).link = .active ∧ claimState s.helm .operator = .idle ∧
      s.helm.holder = some .presenter ∧ levelOf s.sru.set .operator = levelOf s.sru.set .presenter ∧
      s.helm.staged.get .operator = staged := by decide

/-- A RELEASE of the operator. -/
def letting (h : Option Claimant) (stack : List Claimant) : State := fire (helmed ran h stack []) .operator .release .active

theorem wit_ReleaseHandsOver : ∀ s ∈ [letting (some .operator) [.presenter], letting (some .presenter) [.operator], letting none []],
    HelmOk s ∧ (∃ q a rest, (s.hlr.get .operator).fired = ⟨.release, q, a⟩ :: rest) ∧
      ∀ n, .silenceLimit n ∉ s.helm.staged.get .operator := by
  intro s hs
  simp only [List.mem_cons, List.not_mem_nil, or_false] at hs
  unfold HelmOk
  obtain rfl | rfl | rfl := hs <;> exact ⟨by decide, ⟨_, _, _, rfl⟩, fun _ h => nomatch h⟩

theorem wit_ReleaseHandsOver_states : (letting (some .operator) [.presenter]).helm.holder = some .operator ∧
    claimState (letting (some .presenter) [.operator]).helm .operator = .suspended ∧
    claimState (letting none []).helm .operator = .idle := by decide

theorem wit_ReleaseHandsOver_staged : ∀ h ∈ [some Claimant.operator, some .presenter], ∀ staged ∈ [[], [ClaimantUpdate.silenceLimit 2]],
    let s := staging (letting h (if h = some .operator then [] else [.operator])) staged
    HelmOk s ∧ (s.hlr.get .operator).fired.length = 1 ∧ claimState s.helm .operator ≠ .idle ∧
      s.helm.staged.get .operator = staged := by
  unfold HelmOk
  decide

theorem wit_HolderActions : ∀ a ∈ [Action.pause, .returnMark, .nextStory, .prevStory], ∀ h ∈ [some Claimant.operator, none],
    ∃ (s : State) (q : Qualifier) (b : Bool) (rest : List Fired), (s.hlr.get .operator).fired = ⟨a, q, b⟩ :: rest ∧
      s.helm.holder = h :=
  fun a _ h _ => ⟨fire (helmed ran h [] []) .operator a .active, _, _, _, rfl, rfl⟩

/-- A setting handed on with the helm as given. -/
def setting (o : Nat) (w : Word) (h : Option Claimant) (stack : List Claimant) (x : Settings) : State :=
  handed ((helmed ran h stack []).withSru { resetSru with set := x }) (.setting o w)

/-- A level that preempts and one that only equals; both changes of mode; AUTO's enable word in each of its cases. -/
theorem wit_HelmSettingsAct :
    (let s := setting 0x34 3 (some .auto) [.presenter] { resetSettings with levelAuto := 2 }
     let ranked := withSettings s (s.sru.set.setLevel .presenter 3)
     s.sru.set.helmMode = .nest ∧ successor ranked = some .presenter ∧
        levelOf ranked.sru.set .auto < levelOf ranked.sru.set .presenter) ∧
    (let s := setting 0x34 3 (some .operator) [.presenter] resetSettings
     let ranked := withSettings s (s.sru.set.setLevel .presenter 3)
     successor ranked = some .presenter ∧ levelOf ranked.sru.set .presenter = levelOf ranked.sru.set .operator) ∧
    (let s := setting 0x2C 1 (some .operator) [.presenter] resetSettings
     s.sru.set.helmMode = .nest ∧ s.helm.staged = ⟨[], []⟩) ∧
    (let s := setting 0x2C 0 (some .auto) [.presenter] { resetSettings with helmMode := .single }
     successor s = some .presenter ∧ levelOf s.sru.set .auto < levelOf s.sru.set .presenter) ∧
    (let s := setting 0x2C 0 (some .operator) [.presenter] { resetSettings with helmMode := .single }
     successor s = some .presenter ∧ levelOf s.sru.set .presenter ≤ levelOf s.sru.set .operator) ∧
    (let s := setting 0x3C 1 none [] resetSettings
     s.helm.holder = none ∧ claimState s.helm .auto = .idle) ∧
    (let s := setting 0x3C 1 (some .operator) [.auto] resetSettings
     claimState s.helm .auto = .suspended) ∧
    (let s := setting 0x3C 1 (some .presenter) [] { resetSettings with levelAuto := 2 }
     claimState s.helm .auto = .idle ∧ levelOf s.sru.set .auto = levelOf s.sru.set .presenter) ∧
    (let s := setting 0x3C 1 (some .presenter) [] { resetSettings with levelAuto := 3 }
     claimState s.helm .auto = .idle ∧ levelOf s.sru.set .presenter < levelOf s.sru.set .auto) ∧
    (setting 0x3C 0 (some .auto) [] resetSettings).helm.holder = some .auto ∧
    claimState (setting 0x3C 0 (some .operator) [.auto] resetSettings).helm .auto = .suspended ∧
    claimState (setting 0x3C 0 none [] resetSettings).helm .auto = .idle := by decide

theorem wit_HelmSettingsAct_handed (o : Nat) (w : Word) (h : Option Claimant) (stack : List Claimant) (x : Settings) :
    ∃ rest, (setting o w h stack x).ptp.handovers = .setting o w :: rest := ⟨_, rfl⟩

/-- NEST to SINGLE with OPERATOR suspended: a staged limit that the silence counter has reached, one above it, and 0. -/
theorem wit_HelmSettingsAct_staged : ∀ n ∈ [2, 3, 0],
    let s0 := setting 0x2C 1 (some .presenter) [.operator, .auto] resetSettings
    let s := (staging s0 [.silenceLimit n]).withLink .operator { resetHlr with link := .active, silence := 2 }
    s.sru.set.helmMode = .nest ∧ s.helm.stack = [.operator, .auto] ∧ s.ptp.handovers = [.setting 0x2C 1] ∧
      .silenceLimit n ∈ s.helm.staged.get .operator ∧ (s.hlr.get .operator).link = .active ∧
      (n ≤ (s.hlr.get .operator).silence ↔ n ≠ 3) := by decide

theorem wit_HelmSettingsAct_unlimited :
    let s := staging (setting 0x2C 1 (some .presenter) [.operator] resetSettings) [.deadZone 3]
    s.sru.set.helmMode = .nest ∧ s.helm.stack = [.operator] ∧ ∀ l n, claimantOf l ∈ s.helm.stack →
      .silenceLimit n ∉ s.helm.staged.get l := by
  refine ⟨rfl, rfl, fun l n _ => ?_⟩
  cases l with
  | operator => exact fun h => nomatch List.mem_singleton.mp h
  | presenter => exact fun h => nomatch h

/-- An IDLE and a HOLDING presenter; a silence limit the counter has reached, and one it has not. -/
theorem wit_ClaimantSettingsTaken :
    (∃ (s : State) (w : Word) (rest : List Handover), s.ptp.handovers = .setting 0xC8 w :: rest ∧
      controlWordAt 0xC8 = some (.claimant .presenter .scale) ∧ claimState s.helm (claimantOf .presenter) = .idle) ∧
    (∃ (s : State) (w : Word) (rest : List Handover), s.ptp.handovers = .setting 0xC8 w :: rest ∧
      claimState s.helm (claimantOf .presenter) = .holding) ∧
    (∃ (s : State) (w : Word) (rest : List Handover), s.ptp.handovers = .setting 0xD8 w :: rest ∧
      controlWordAt 0xD8 = some (.claimant .presenter .silenceLimit) ∧ claimState s.helm (claimantOf .presenter) = .idle ∧
      (takeClaimantWord .silenceLimit w).update = .silenceLimit 28 ∧ (s.hlr.get .presenter).silence = 28 ∧
      (s.hlr.get .presenter).link = .suspect) ∧
    (∃ (s : State) (w : Word) (rest : List Handover), s.ptp.handovers = .setting 0xD8 w :: rest ∧
      (takeClaimantWord .silenceLimit w).update = .silenceLimit 29 ∧ (s.hlr.get .presenter).silence < 29) ∧
    (∃ s : State, s.ftu.due.helm = true) :=
  ⟨⟨setting 0xC8 20 none [] resetSettings, _, _, rfl, by decide⟩,
    ⟨setting 0xC8 20 (some .presenter) [] resetSettings, _, _, rfl, by decide⟩,
    ⟨silent (setting 0xD8 28 none [] resetSettings) 28, _, _, rfl, by decide⟩,
    ⟨silent (setting 0xD8 29 none [] resetSettings) 28, _, _, rfl, by decide⟩,
    ⟨ran.withFtu { resetFtu with due := { noneDue with helm := true } }, rfl⟩⟩

/-- The words at and beyond the ends of the dead zone, the scale and the press window, and button words at the ends of each field. -/
theorem wit_ClaimantSettingsTaken_clamps :
    [(31 : Word), 32].map (fun w => (takeClaimantWord .deadZone w).clamped) = [false, true] ∧
    [(0 : Word), 1, 32, 33].map (fun w => (takeClaimantWord .scale w).clamped) = [true, false, false, true] ∧
    [(99 : Word), 100, 2000, 2001].map (fun w => (takeClaimantWord .pressWindow w).effective) = [100, 100, 2000, 2000] ∧
    [(0x010007 : Word), 0x010008, 0x010300, 0x030000, 0x000000].map (fun w => (takeClaimantWord (.button 0) w).effective) =
      [0x107, 0x100, 0x120, 0x400, 0x100] := by decide

theorem wit_HolderChange : ¬mayReset (.take .operator) ∧ ∃ t, exec (.take .operator) (taking .active none []) = .next t ∧
    t.helm.holder ≠ (taking .active none []).helm.holder := ⟨fun h => h, _, rfl, by decide⟩

/-! The prompt heads. -/

/-- Head 0 at its boundary with a route in use and another to load, its state and its last acknowledged frame. -/
def atFrame (old new : Route) (st : HeadState) (ack : Half) : State :=
  (((ran.withHead .h0 { resetHlt .h0 with route := old, state := st, lastAck := some ack }).withSru { resetSru with
    set := { resetSettings with routes := { resetSettings.routes with h0 := new } } }).withFtu
    { resetFtu with frame := 100, due := { noneDue with hlt := ⟨true, false, false, false⟩ } })

/-- A change of route; a lag of one above the stall threshold and one equal to it; a head that is OFF. -/
theorem wit_HeadFrameSent :
    (∀ s ∈ [atFrame (resetRoute .h0) (resetRoute .h1) .up 99, atFrame (resetRoute .h0) (resetRoute .h0) .up 89,
        atFrame (resetRoute .h0) (resetRoute .h0) .up 90, atFrame (resetRoute .h1) (resetRoute .h1) .silent 0],
      s.ftu.due.hlt.get .h0 = true ∧ s.ftu.due.sce = false) ∧
    (let s := atFrame (resetRoute .h0) (resetRoute .h1) .up 99
     (s.hlt.get .h0).route.source ≠ (s.sru.set.routes.get .h0).source ∧ (s.hlt.get .h0).state ≠ .silent) ∧
    (let s := atFrame (resetRoute .h0) (resetRoute .h0) .up 89
     (s.hlt.get .h0).route = s.sru.set.routes.get .h0 ∧ (s.hlt.get .h0).state = .up ∧
       (s.sru.set.routes.get .h0).source ≠ .off ∧ (s.ftu.frame - 89).toNat = (s.sru.set.routes.get .h0).stall + 1) ∧
    (let s := atFrame (resetRoute .h0) (resetRoute .h0) .up 90
     (s.ftu.frame - 90).toNat = (s.sru.set.routes.get .h0).stall ∧ (s.sru.set.routes.get .h0).source = .live) ∧
    (atFrame (resetRoute .h1) (resetRoute .h1) .silent 0).sru.set.routes.h0.source = .off := by decide

/-- Head 0 UP at a boundary, with a frame whose rows are not all sent: a row being built, one queued, and a full stale made since. -/
def closing : State :=
  (atFrame (resetRoute .h0) (resetRoute .h0) .up 90).withHead .h0 { resetHlt .h0 with
    state := .up, lastAck := some 90, view := [⟨none, true⟩, ⟨none, true⟩, ⟨none, true⟩], staleDue := true
    build := some ⟨0, .slot 3 .cue true, .header⟩, queued := [⟨some 1, [0xF2]⟩], sending := some ⟨none, [1], false⟩ }

/-- The three entries of a closed view with and without a full stale, a head that comes to a card, and one that neither is nor was
LIVE. -/
theorem wit_HeadFrameSent_view :
    (closing.ftu.due.hlt.get .h0 = true ∧ closing.ftu.due.sce = false ∧ (closing.hlt.get .h0).sending ≠ none) ∧
    (closedView (closing.hlt.get .h0)).map (·.sent) = [false, false, false] ∧
    (closedView { closing.hlt.get .h0 with staleDue := false }).map (·.sent) = [false, false, true] ∧
    (let s := atFrame (resetRoute .h1) { resetRoute .h1 with source := .card1 } .silent 0
     (s.sru.set.routes.get .h0).source = .card1 ∧ (s.hlt.get .h0).route.source ≠ .live) := by decide

/-- A view shifted by one: a position with and one without a predecessor, on the same slot and on another, and one above the
map. -/
theorem wit_ViewShift :
    (∃ (rows : List Row) (top : Int) (p size : Nat) (r : Row), p ≤ size ∧ 0 ≤ top + p ∧ rows[(top + p).toNat]? = some r ∧
      p = size) ∧
    (∃ (rows : List Row) (top : Int) (p size : Nat), p ≤ size ∧ (rows.length : Int) ≤ top + p ∧ (rows.length : Int) = top + p) ∧
    (∃ (top : Int) (p size : Nat), p ≤ size ∧ top + p < 0 ∧ top + p = -1) ∧
    (∃ (view : List ViewEntry) (previous top : Int) (p size : Nat) (v : ViewEntry), p ≤ size ∧ 0 ≤ p + (top - previous) ∧
      p + (top - previous) ≤ size ∧ view[(p + (top - previous)).toNat]? = some v ∧ p + (top - previous) = size) ∧
    (∃ (previous top : Int) (p size : Nat), p ≤ size ∧ (size : Int) < p + (top - previous) ∧ p = size) :=
  ⟨⟨(mapOf 3 7 [0]).rows, 0, 2, 2, _, by decide, by decide, rfl, rfl⟩, ⟨(mapOf 3 7 [0]).rows, 0, 3, 3, by decide⟩,
    ⟨-1, 0, 3, by decide⟩, ⟨[⟨none, true⟩, ⟨none, false⟩], 0, 1, 0, 1, _, by decide, by decide, by decide, rfl, rfl⟩,
    ⟨0, 1, 3, 3, by decide⟩⟩

/-- A head with a budget and a view of one entry. -/
def building (src : Source) (left : Nat) (v : ViewEntry) : Hlt :=
  { resetHlt .h0 with route := { resetRoute .h0 with source := src }, budgetLeft := left, view := [v] }

/-- A ROW whose read is in progress: the length is 2, and a budget of 8 takes it to the byte. -/
def rowReading (stage : BuildStage) (left : Nat) (orphan : Bool) : State :=
  busy ((ran.withMem (writeWord [] 9 0xF 0x200)).withHead .h0 { resetHlt .h0 with
    budgetLeft := left, build := some ⟨0, .slot 5 .cue true, stage⟩ }) ⟨.part (.hlt .h0), false, 9, 0xF, 0, orphan⟩

theorem wit_RowsBuilt :
    (∃ r : Route, r.readRow ≤ r.rows) ∧
    (∃ (x : Hlt) (v : ViewEntry), x.route.source = .live ∧ x.view[0]? = some v ∧ v.slot = none ∧ x.budgetLeft = 6) ∧
    (∃ (x : Hlt) (v : ViewEntry), x.route.source = .live ∧ x.view[0]? = some v ∧ v.slot = none ∧ x.budgetLeft = 5) ∧
    (∃ (rows : List Row) (x : Hlt) (v : ViewEntry) (n : Nat) (r : Row), x.route.source = .live ∧ x.view[0]? = some v ∧
      v.slot = some n ∧ 0 ≤ x.prevTop + (0 : Nat) ∧ rows[(x.prevTop + (0 : Nat)).toNat]? = some r) ∧
    (∀ top ∈ [(-1 : Int), 1], ∃ (rows : List Row) (x : Hlt) (v : ViewEntry) (n : Nat), x.route.source = .live ∧
      x.view[0]? = some v ∧ v.slot = some n ∧ x.prevTop = top ∧
      (x.prevTop + (0 : Nat) < 0 ∨ (rows.length : Int) ≤ x.prevTop + (0 : Nat))) ∧
    (∃ (x : Hlt) (c : Nat), cardOf x.route.source = some c ∧ c = 3) ∧
    (∀ n ∈ [0, 1], ∃ x : Hlt, x.sending = none ∧ x.inject = n) ∧ (∃ x : Hlt, x.sending ≠ none) ∧
    (∃ x : Hlt, x.route.source = .test ∧ 6 + (decimal 0 ++ [0x20] ++ decimal 9).length = x.budgetLeft) ∧
    (∃ x : Hlt, x.route.source = .test ∧ x.budgetLeft + 1 = 6 + (decimal 0 ++ [0x20] ++ decimal 9).length) :=
  ⟨⟨resetRoute .h0, by decide⟩,
    ⟨building .live 6 ⟨none, false⟩, _, rfl, rfl, rfl, rfl⟩, ⟨building .live 5 ⟨none, false⟩, _, rfl, rfl, rfl, rfl⟩,
    ⟨(mapOf 1 7 [0]).rows, building .live 5 ⟨some 7, false⟩, _, _, _, rfl, rfl, rfl, by decide, rfl⟩,
    fun top h => ⟨(mapOf 1 7 [0]).rows, { building .live 5 ⟨some 7, false⟩ with prevTop := top }, _, _, rfl, rfl, rfl, rfl, by
      simp only [List.mem_cons, List.not_mem_nil, or_false] at h
      obtain rfl | rfl := h <;> decide⟩,
    ⟨building .card3 0 ⟨none, false⟩, 3, rfl, rfl⟩, fun n _ => ⟨{ resetHlt .h0 with inject := n }, rfl, rfl⟩,
    ⟨closing.hlt.h0, by decide⟩,
    ⟨building .test 9 ⟨none, false⟩, rfl, by decide⟩, ⟨building .test 8 ⟨none, false⟩, rfl, by decide⟩⟩

theorem wit_RowsBuilt_digits : (∃ n, n < 65536 ∧ n = 65535) ∧ decimal 65535 = [0x36, 0x35, 0x35, 0x33, 0x35] ∧ decimal 0 = [0x30] :=
  ⟨⟨65535, by decide⟩, by decide +kernel, by decide +kernel⟩

theorem wit_RowsBuilt_read :
    (∀ (stage : BuildStage) (left : Nat), ∃ (a : PortAccess) (b : RowBuild), (rowReading stage left false).port.busy = some a ∧
      a.owner = .part (.hlt .h0) ∧ a.orphan = false ∧ ((rowReading stage left false).hlt.get .h0).build = some b ∧
      b.stage = stage ∧ ((rowReading stage left false).hlt.get .h0).budgetLeft = left) ∧
    (let w := readWord (rowReading .header 8 false).mem 9
     0 < min (laneOf w 1).toNat 120 ∧ 6 + min (laneOf w 1).toNat 120 = 8) ∧
    (∃ m : Nat, ∃ words : List Word, 4 * (words.length + 1) < m ∧ m = 5) ∧
    (∃ m : Nat, ∃ words : List Word, m ≤ 4 * (words.length + 1) ∧ m = 4) ∧
    (∃ a : PortAccess, (rowReading .header 8 true).port.busy = some a ∧ a.owner = .part (.hlt .h0) ∧ a.orphan = true) :=
  ⟨fun _ _ => ⟨_, _, rfl, rfl, rfl, rfl, rfl, rfl⟩, by decide +kernel, ⟨5, [], by decide⟩, ⟨4, [], by decide⟩, _, rfl, rfl, rfl⟩

/-- Bytes 100 microseconds apart; a head that is UP with a known count, and one that is OFF. -/
theorem wit_AcksAndMessages :
    (∃ (s : State) (t0 t1 t2 t3 t4 t5 t6 : Nat) (f0 f1 count flags k : Byte), s.rst.phase = .running ∧
      (s.hlt.get .h0).ackParser = [] ∧ t1 = t0 + 100 ∧ t2 = t1 + 100 ∧ t3 = t2 + 100 ∧ t4 = t3 + 100 ∧ t5 = t4 + 100 ∧
      t6 = t5 + 100 ∧ 0xC3 + 7 + f0 + f1 + count + flags + k = 0 ∧ (s.hlt.get .h0).state = .up ∧
      (s.hlt.get .h0).rejected = some 4 ∧ (s.hlt.get .h0).route.source ≠ .off) ∧
    (∃ s : State, s.rst.phase = .running ∧ (s.hlt.get .h1).ackParser = [] ∧ (s.hlt.get .h1).route.source = .off) ∧
    (∃ (s : State) (m : Sending) (n : HeadMsg) (rest : List HeadMsg), (s.hlt.get .h0).sending = some m ∧
      (s.hlt.get .h0).queued = n :: rest ∧ m.injected = true ∧ (s.hlt.get .h0).inject = 1) ∧
    (∃ (s : State) (m : Sending), (s.hlt.get .h0).sending = some m ∧ (s.hlt.get .h0).queued = []) ∧
    (∃ s : State, (s.hlt.get .h0).sending = none) :=
  ⟨⟨ran.withHead .h0 { resetHlt .h0 with state := .up, rejected := some 4 }, 0, 100, 200, 300, 400, 500, 600, 9, 0, 4, 1, 0x28,
      by decide⟩, ⟨ran, by decide⟩,
    ⟨ran.withHead .h0 { resetHlt .h0 with
      inject := 1, sending := some ⟨some 1, [1], true⟩, queued := [⟨none, [0xF1]⟩] }, _, _, _, rfl, rfl, rfl, rfl⟩,
    ⟨ran.withHead .h0 { resetHlt .h0 with sending := some ⟨none, [1], false⟩ }, _, rfl, rfl⟩, ⟨ran, rfl⟩⟩

/-- A head's receiver that holds these bytes, received at time 100. -/
def hearing (bytes : List Byte) : State := ran.withHead .h0 { resetHlt .h0 with ackParser := bytes.map (fun b => (100, b)) }

theorem wit_AcksAndMessages_broken :
    (∃ (s : State) (framing : Bool), s.rst.phase = .running ∧ framing = true) ∧
    (∃ s : State, s.rst.phase = .running ∧ (s.hlt.get .h0).ackParser = []) ∧
    (∃ (s : State) (time : Nat), s.rst.phase = .running ∧ lastTime (s.hlt.get .h0).ackParser + 100 < time ∧ time = 201) ∧
    (∃ (s : State) (b0 : Nat × Byte) (time : Nat), s.rst.phase = .running ∧ (s.hlt.get .h0).ackParser = [b0] ∧
      b0.2 = 0xC3 ∧ time ≤ b0.1 + 100 ∧ time = 200) ∧
    (∀ more ∈ [[], [(100, (0xC3 : Byte)), (100, 7), (100, 0)]], ∃ (s : State) (b0 b1 : Nat × Byte) (time : Nat),
      s.rst.phase = .running ∧ (s.hlt.get .h0).ackParser = b0 :: b1 :: more ∧ b0.2 = 0xC3 ∧ b1.2 = 7 ∧ more.length < 4 ∧
      time ≤ lastTime (s.hlt.get .h0).ackParser + 100 ∧ time = 200) ∧
    (∀ data ∈ [(0 : Byte), 0xC3], ∃ (s : State) (b0 b1 b2 b3 b4 b5 : Nat × Byte) (time : Nat), s.rst.phase = .running ∧
      (s.hlt.get .h0).ackParser = [b0, b1, b2, b3, b4, b5] ∧ b0.2 = 0xC3 ∧ b1.2 = 7 ∧ time ≤ b5.1 + 100 ∧ time = 200 ∧
      b0.2 + b1.2 + b2.2 + b3.2 + b4.2 + b5.2 + data ≠ 0) ∧
    (∃ s : State, s.rst.phase ≠ .running) := by
  refine ⟨⟨ran, true, by decide⟩, ⟨ran, by decide⟩, ⟨hearing [0xC3, 7], 201, by decide⟩,
    ⟨hearing [0xC3], _, 200, rfl, rfl, rfl, by decide, rfl⟩, fun more h => ?_, fun data h => ?_,
    ⟨held, by decide⟩⟩
  · simp only [List.mem_cons, List.not_mem_nil, or_false] at h
    obtain rfl | rfl := h
    · exact ⟨hearing [0xC3, 7], _, _, 200, rfl, rfl, rfl, rfl, by decide, by decide, rfl⟩
    · exact ⟨hearing [0xC3, 7, 0xC3, 7, 0], _, _, 200, rfl, rfl, rfl, rfl, by decide, by decide, rfl⟩
  · refine ⟨hearing [0xC3, 7, 0xC3, 7, 0, 0], _, _, _, _, _, _, 200, rfl, rfl, rfl, rfl, by decide, rfl, ?_⟩
    simp only [List.mem_cons, List.not_mem_nil, or_false] at h
    obtain rfl | rfl := h <;> decide

/-- A wrong sum: the bytes after the type byte are examined again, and the ACK that begins among them is kept (R139). -/
theorem test_head_ack_rehunt :
    ((after (.headAck .h0 [⟨200, 4, false⟩]) (hearing [0xC3, 7, 9, 0xC3, 7, 2])).hlt.get .h0).ackParser =
      [(100, 0xC3), (100, 7), (100, 2), (200, 4)] := by decide +kernel

/-! The bus. -/

/-- The part carrying an access at a stage, another standing at the pins. -/
def carrying (st : Stage) (gone : Bool) (next : Option Access) : State :=
  ran.withPtp { resetPtp with carried := some ⟨⟨true, 9, 0xF, 7⟩, 0xF, st, gone⟩, presented := next }

theorem wit_AccessTaken :
    readyToTake ran ∧
    (∃ c a, presentsWrite c a ∧ a.ha.toNat = 0x3FF ∧ windowOf a.ha.toNat = .control) ∧
    (∃ c a, presentsWrite c a ∧ a.ha.toNat = 0x400 ∧ droppedAccess a.ha = true) ∧
    (∃ c a, presentsWrite c a ∧ a.ha.toNat = 0x7FF ∧ droppedAccess a.ha = true) ∧
    (∃ c a, presentsWrite c a ∧ a.ha.toNat = consumeWord) ∧
    (∃ c a, presentsWrite c a ∧ a.ha.toNat = 0xA00 ∧ windowOf a.ha.toNat = .general) ∧
    (∃ c a, presentsWrite c a ∧ a.ha.toNat = 0x3FFF ∧ windowOf a.ha.toNat = .general) ∧
    (∃ c, presentsAccess c ⟨false, 9, 0xF, 0⟩) ∧
    ¬readyToTake held ∧ ¬readyToTake (carrying .waiting false none) ∧ ¬readyToTake (handed ran (.consume 0)) ∧
    (∃ (s : State) (a : Access), readyToTake s ∧ s.ptp.presented = some a) ∧
    (∃ k, (carrying .complete false none).ptp.carried = some k ∧ k.stage = .complete) ∧
    (∃ k a, (carrying .complete false (some ⟨false, 9, 0xF, 0⟩)).ptp.carried = some k ∧ k.stage = .complete ∧
      (carrying .complete false (some ⟨false, 9, 0xF, 0⟩)).ptp.presented = some a ∧
      (carrying .complete false (some ⟨false, 9, 0xF, 0⟩)).rst.phase = .running ∧
      (carrying .complete false (some ⟨false, 9, 0xF, 0⟩)).ptp.handovers = []) ∧
    (∃ k, (carrying .waiting false none).ptp.carried = some k ∧ k.stage ≠ .complete ∧ k.withdrawn = false) ∧
    (∃ k, (carrying .onPort true none).ptp.carried = some k ∧ k.stage ≠ .complete ∧ k.withdrawn = true) ∧
    ran.ptp.carried = none := by
  have presented (ha : WordAddr) : presentsWrite (.accessPresented ⟨ha, 0xF, 7, true, false⟩) ⟨true, ha, 0xF, 7⟩ :=
    ⟨rfl, .inr (.inr (.inr (.inr ⟨_, rfl⟩)))⟩
  exact ⟨⟨rfl, rfl, rfl⟩, ⟨_, _, presented 0x3FF, by decide⟩, ⟨_, _, presented 0x400, by decide⟩, ⟨_, _, presented 0x7FF, by decide⟩,
    ⟨_, _, presented 0x422, by decide⟩, ⟨_, _, presented 0xA00, by decide⟩, ⟨_, _, presented 0x3FFF, by decide⟩,
    ⟨_, .inr ⟨rfl, rfl⟩⟩, fun h => absurd h.1 (by decide), fun h => absurd h.2.1 (by decide), fun h => absurd h.2.2 (by decide),
    ⟨ran.withPtp { resetPtp with presented := some ⟨false, 9, 0xF, 0⟩ }, _, ⟨rfl, rfl, rfl⟩, rfl⟩,
    ⟨_, rfl, by decide⟩, ⟨_, _, rfl, by decide, rfl, by decide, rfl⟩, ⟨_, rfl, by decide⟩, ⟨_, rfl, by decide⟩, rfl⟩

/-- A processor access in progress at a word. -/
def performing (write : Bool) (wa : Nat) (gone : Bool) (orphan : Bool) : State :=
  busy (ran.withPtp { resetPtp with carried := some ⟨⟨write, .ofNat 21 wa, 0xF, 2⟩, 0xF, .onPort, gone⟩ })
    ⟨.processor, write, wa, 0xF, 2, orphan⟩

theorem wit_AccessPerformed :
    (∀ (wa : Nat) (gone : Bool), ∃ (a : PortAccess) (acc : Access) (l : Lanes), MemOk (performing true wa gone false) ∧
      (performing true wa gone false).port.busy = some a ∧ a.owner = .processor ∧ a.write = true ∧ a.orphan = false ∧
      (performing true wa gone false).ptp.carried = some ⟨acc, l, .onPort, gone⟩ ∧ a.wa = wa ∧ a.lanes.getLsbD 0 = true) ∧
    (∃ wa c r, windowOf wa = .control ∧ controlWordAt (4 * wa) = some (.card c r)) ∧
    (∃ wa c, windowOf wa = .control ∧ controlWordAt (4 * wa) = some c ∧ ∀ i r, c ≠ .card i r) ∧
    (∃ wa, windowOf wa = .control ∧ controlWordAt (4 * wa) = none ∧ wa = 0x3FF) ∧
    (∃ wa, windowOf wa = .rundown ∧ (wa - rundownBase) % 2 = 1 ∧ wa = 0x9FF) ∧ (∃ wa, windowOf wa = .line ∧ wa = lineBase) ∧
    (∃ a : PortAccess, MemOk (performing true 9 false true) ∧ (performing true 9 false true).port.busy = some a ∧
      a.owner = .processor ∧ a.write = true ∧ a.orphan = true) ∧
    (∀ gone : Bool, ∃ (a : PortAccess) (acc : Access) (l : Lanes), (performing false 0x420 gone false).port.busy = some a ∧
      a.owner = .processor ∧ a.write = false ∧ a.orphan = false ∧
      (performing false 0x420 gone false).ptp.carried = some ⟨acc, l, .onPort, gone⟩ ∧ acc.ha.toNat = attentionWord) ∧
    (∃ (s : State) (a : PortAccess) (e : HoldEntry), s.port.busy = some a ∧ e ∈ s.ehu.queue ∧ e.wa = a.wa ∧
      ∀ e' ∈ s.ehu.queue, e'.wa = a.wa → e' = e) :=
  ⟨fun _ _ => ⟨_, _, _, rfl, rfl, rfl, rfl, rfl, rfl, rfl, (by decide : (0xF : Lanes).getLsbD 0 = true)⟩,
    ⟨0x100, 1, 0, by decide⟩, ⟨0, .runReset, by decide, by decide, fun _ _ h => nomatch h⟩, ⟨0x3FF, by decide⟩, ⟨0x9FF, by decide⟩,
    ⟨lineBase, by decide⟩, ⟨_, rfl, rfl, rfl, rfl, rfl⟩, fun _ => ⟨_, _, _, rfl, rfl, rfl, rfl, rfl, (by decide : (0x420 : Nat) = attentionWord)⟩,
    ⟨releasing, _, _, rfl, List.mem_singleton.mpr rfl, rfl, fun _ h _ => List.mem_singleton.mp h⟩⟩

theorem wit_AccessPerformed_abandoned : MemOk (abandoned .processor false) ∧
    ∃ a, (abandoned .processor false).port.busy = some a ∧ a.owner = .processor ∧ a.write = false ∧ a.orphan = true :=
  ⟨rfl, _, rfl, rfl, rfl, rfl⟩

/-- The walker waits, and a processor access, at a fairness count. -/
def contending (n : Nat) : State :=
  ((carrying .waiting false none).withRwk { resetWalker with phase := .walking, read := some (.entryWord 0) }).withPort
    { resetPort with fairness := n }

/-- The eighth grant of the processor, and the part's turn after it. -/
theorem wit_ArbiterGrants :
    ((contending 7).port.busy = none ∧ (contending 7).ptp.handovers = [] ∧ (processorWaits (contending 7)).isSome = true ∧
      (contending 7).port.fairness < 8 ∧ anyPartWaits (contending 7) = true) ∧
    ((contending 8).port.busy = none ∧ (contending 8).ptp.handovers = [] ∧ anyPartWaits (contending 8) = true ∧
      8 ≤ (contending 8).port.fairness) ∧
    (anyPartWaits ran = false ∧ processorWaits ran = none ∧ ran.port.busy = none ∧ ran.ptp.handovers = []) ∧
    (handed ran (.consume 0)).ptp.handovers ≠ [] := by decide +kernel

/-- The attention write alone waits; each read of a walk and of a row; the guard reads' last entry; a releasing entry behind a held one;
and each write of the SRU, at the last word of a record and at its index. -/
theorem wit_ArbiterGrants_requests :
    (let s := ran.withSru { resetSru with request := some .attention, attnReq := true }
     anyPartWaits s = true ∧ processorWaits s = none ∧ partWaits s .sru = true ∧ s.sru.request = some .attention) ∧
    (let s := contending 0; partWaits s .rwk = true ∧ s.sru.request ≠ some .attention) ∧
    (∃ c t, exec c ran = .next t) ∧
    (∃ s : State, (arbitrate s).port.busy = none ∧ (arbitrate s).ptp.handovers = []) ∧
    (∀ r : WalkRead, ∃ s : State, s.rwk.read = some r) ∧ (∀ b : RowBuild, ∃ s : State, (s.hlt.get .h2).build = some b) ∧
    (let s := starting .windows 5 255; s.rst.phase = .windows ∧ s.rst.guardNext < 256) ∧
    (∃ (s : State) (older newer : List HoldEntry) (e : HoldEntry), s.rst.phase = .running ∧ s.ehu.queue = older ++ e :: newer ∧
      older ≠ [] ∧ (∀ o ∈ older, o.state ≠ .releasing) ∧ e.state = .releasing) ∧
    (∀ k : SruAccess, ∃ s : State, s.sru.request = some k) ∧
    (∀ n ∈ [3, 4], ∃ (s : State) (r : Record) (rest : List Record), s.sru.request = some .record ∧ s.sru.records = r :: rest ∧
      s.sru.recordWord = n) :=
  ⟨by decide +kernel, by decide +kernel, ⟨.hcsRises, _, rfl⟩, ⟨ran, by decide +kernel⟩,
    fun r => ⟨ran.withRwk { resetWalker with read := some r }, rfl⟩,
    fun b => ⟨ran.withHead .h2 { resetHlt .h2 with build := some b }, rfl⟩, by decide,
    ⟨onAir.withEhu { onAir.ehu with queue := [⟨0x80A2, 0xF, 1, 517, 3, .held⟩, ⟨0x8C62, 3, 1, 611, 6, .releasing⟩] },
      [⟨0x80A2, 0xF, 1, 517, 3, .held⟩], [], ⟨0x8C62, 3, 1, 611, 6, .releasing⟩, rfl, rfl, by decide, by decide, rfl⟩,
    fun k => ⟨ran.withSru { resetSru with request := some k }, rfl⟩,
    fun n _ => ⟨ran.withSru { resetSru with request := some .record, recordWord := n, records := [⟨0, .reset .run, 0, 0⟩] },
      _, _, rfl, rfl, rfl⟩⟩

/-! Settings, status, events and the run reset. -/

/-- The words at and beyond the ends of the ranges that clamp below and above. -/
theorem wit_SettingsTaken_clamps :
    [(0 : Word), 1, 4095, 4096].map (fun w => max 1 (min 4095 w.toNat)) = [1, 1, 4095, 4095] ∧
    (0x01C, 1, 4095) ∈ plainTable ∧ (0x004, 0, 255) ∈ plainTable ∧
    [(9999 : Word), 50001].map (fun w => clampReport 0x028 (max 10000 (min 50000 w.toNat)) w) =
      [[.settingClamped 0x028 10000 9999], [.settingClamped 0x028 50000 50001]] ∧
    [(255 : Word), 256].map (fun w => (clampReport 0x004 (max 0 (min 255 w.toNat)) w).length) = [0, 1] := by decide

theorem wit_SettingsTaken (o : Nat) (w : Word) : ∃ rest, (handed ran (.setting o w)).ptp.handovers = .setting o w :: rest :=
  ⟨_, rfl⟩

theorem wit_RoutesTaken :
    (∃ (s : State) (w : Word) (rest : List Handover), s.ptp.handovers = .setting (routeOffset .h1 .source) w :: rest ∧ w = 5 ∧
      (s.sru.set.routes.get .h2).source = .test) ∧
    (∃ (s : State) (w : Word) (rest : List Handover), s.ptp.handovers = .setting (routeOffset .h1 .source) w :: rest ∧ w = 5 ∧
      ∀ k, (s.sru.set.routes.get k).source ≠ .test) ∧
    (∃ (s : State) (w : Word) (rest : List Handover), s.ptp.handovers = .setting (routeOffset .h1 .rows) w :: rest ∧
      (s.sru.set.routes.get .h1).readRow = max 4 (min 32 w.toNat) - 1) ∧
    (∃ (s : State) (w : Word) (rest : List Handover), s.ptp.handovers = .setting (routeOffset .h1 .rows) w :: rest ∧
      max 4 (min 32 w.toNat) - 1 < (s.sru.set.routes.get .h1).readRow) ∧
    (∃ (s : State) (c r : Nat) (rest : List Handover), s.ptp.handovers = .card c r :: rest ∧
      cardOf (s.hlt.get .h2).route.source = some c ∧ ((s.hlt.get .h2).view[r]?).isSome = true ∧
      cardOf (s.hlt.get .h0).route.source ≠ some c) :=
  ⟨⟨setting (routeOffset .h1 .source) 5 none [] { resetSettings with
      routes := { resetSettings.routes with h2 := { resetRoute .h2 with source := .test } } }, _, _, rfl, rfl, rfl⟩,
    ⟨setting (routeOffset .h1 .source) 5 none [] resetSettings, _, _, rfl, rfl, fun k => by cases k <;> decide⟩,
    ⟨setting (routeOffset .h1 .rows) 4 none [] resetSettings, _, _, rfl, by decide⟩,
    ⟨setting (routeOffset .h1 .rows) 4 none [] { resetSettings with
      routes := { resetSettings.routes with h1 := { resetRoute .h1 with readRow := 4 } } }, _, _, rfl, by decide⟩,
    ⟨handed (ran.withHead .h2 { resetHlt .h2 with route := { resetRoute .h2 with source := .card1 } }) (.card 1 3), _, _, _, rfl,
      by decide⟩⟩

/-- The source code 5 and the codes around it; the ends of each number's range; and every field handed on. -/
theorem wit_RoutesTaken_fields :
    (∀ (f : RouteField) (w : Word), ∃ rest, (setting (routeOffset .h1 f) w none [] resetSettings).ptp.handovers =
      .setting (routeOffset .h1 f) w :: rest) ∧
    ((4 : Word).toNat < 5 ∧ 5 < (6 : Word).toNat) ∧
    [(11 : Word), 12].map (fun w => (clampReport 0x228 (min (12 - 1) w.toNat) w).length) = [0, 1] ∧
    [(255 : Word), 256, 16384, 16385].map (fun w => (clampReport 0x22C (max 256 (min 16384 w.toNat)) w).length) = [1, 0, 0, 1] ∧
    [(1 : Word), 2, 60, 61].map (fun w => (clampReport 0x230 (max 2 (min 60 w.toNat)) w).length) = [1, 0, 0, 1] ∧
    [(1 : Word), 2].map (fun w => (clampReport 0x234 (if w = 0 then 0 else 1) w).length) = [0, 1] ∧
    [(255 : Word), 256].map (fun w => (clampReport 0x238 (min 255 w.toNat) w).length) = [0, 1] :=
  ⟨fun _ _ => ⟨_, rfl⟩, by decide, by decide, by decide, by decide, by decide, by decide⟩

theorem wit_StatusSnapshotTaken :
    (∃ s : State, s.ftu.due.sru = true ∧ s.ftu.due.sce = false ∧ ∀ h, s.ftu.due.hlt.get h = false) ∧
    (∃ (s : State) (k : Carried), s.ptp.carried = some k ∧ k.acc.write = false ∧ k.acc.ha.toNat = 0x41F ∧
      s.sru.status ≠ none) ∧
    (∃ (s : State) (x : StatusWrite), s.sru.request = some .status ∧ s.sru.status = some x) :=
  ⟨⟨ran.withFtu { resetFtu with due := { noneDue with sru := true } }, rfl, rfl, fun h => by cases h <;> rfl⟩,
    ⟨(writing .running .status 0).withPtp { resetPtp with carried := some ⟨⟨false, 0x41F, 0xF, 0⟩, 0, .waiting, false⟩ }, _, rfl,
      rfl, by decide, by decide⟩, ⟨writing .running .status 0, _, rfl, rfl⟩⟩

/-- A ring with room for one more, and a full one. -/
theorem wit_EventsAndAttention :
    (∃ s : State, (s.sru.produce - s.sru.consume).toNat = 31) ∧ (∃ s : State, (s.sru.produce - s.sru.consume).toNat = 32) ∧
    (∃ (s : State) (w : Word) (rest : List Handover), s.ptp.handovers = .attention w :: rest) :=
  ⟨⟨ran.withSru { resetSru with produce := 33, consume := 2 }, by decide⟩,
    ⟨ran.withSru { resetSru with produce := 34, consume := 2 }, by decide⟩, ⟨handed ran (.attention 1), _, _, rfl⟩⟩

theorem wit_ConsumeTaken :
    (∃ (s : State) (w : Word) (rest : List Handover), s.ptp.handovers = .consume w :: rest ∧
      (s.sru.produce - w.setWidth 8).toNat = 32) ∧
    (∃ (s : State) (w : Word) (rest : List Handover), s.ptp.handovers = .consume w :: rest ∧
      (s.sru.produce - w.setWidth 8).toNat = 33) :=
  ⟨⟨handed (ran.withSru { resetSru with produce := 34, consume := 2 }) (.consume 2), _, _, rfl, by decide⟩,
    ⟨handed (ran.withSru { resetSru with produce := 34, consume := 2 }) (.consume 1), _, _, rfl, by decide⟩⟩

/-- A word that is not 1, a start with entries and with none, with HELM late and not, and an end. -/
theorem wit_RunResetShares :
    (∃ (s : State) (w : Word) (rest : List Handover), s.ptp.handovers = .setting 0 w :: rest ∧ w = 2) ∧
    (∃ (s : State) (rest : List Handover), RunOk s ∧ s.ptp.handovers = .setting 0 1 :: rest ∧ s.sru.runState = .idle ∧
      s.ehu.queue = [] ∧ s.ftu.due.sce = false ∧ s.helm.staged = ⟨[], []⟩) ∧
    (∃ (s : State) (rest : List Handover), RunOk s ∧ s.ptp.handovers = .setting 0 1 :: rest ∧ s.sru.runState = .idle ∧
      s.ehu.queue ≠ [] ∧ s.ftu.due.sce = true) ∧
    (∃ s : State, s.sru.runState = .running ∧ s.sru.resetLeft = 0 ∧ s.sru.helmShare = false ∧ s.sru.zeroDue = false) ∧
    (∃ s : State, s.sru.runState = .idle) ∧ (∃ s : State, s.sru.resetLeft ≠ 0) ∧
    (∃ s : State, s.sru.helmShare = true ∧ s.ftu.due.sce = true ∧ s.ftu.due.helm = false ∧ s.ftu.due.ehu = false ∧
      s.helm.holder = some .operator ∧ s.helm.staged = ⟨[], []⟩) := by
  unfold RunOk
  exact ⟨⟨handed ran (.setting 0 2), _, _, rfl, rfl⟩, ⟨handed ran (.setting 0 1), _, by decide, rfl, by decide⟩,
    ⟨handed (stepDue nearly) (.setting 0 1), _, by decide, rfl, by decide⟩,
    ⟨ran.withSru { resetSru with runState := .running }, by decide⟩, ⟨ran, rfl⟩,
    ⟨ran.withSru { resetSru with resetLeft := 1 }, by decide⟩,
    ⟨(stepDue (helmed ran (some .operator) [] [])).withSru { resetSru with runState := .running, helmShare := true }, by decide⟩⟩

theorem wit_RunResetShares_walking : ∃ (s : State) (a : PortAccess) (rest : List Handover), RunOk s ∧
    s.ptp.handovers = .setting 0 1 :: rest ∧ s.sru.runState = .idle ∧ s.port.busy = some a ∧ a.owner = .part .rwk ∧
    a.orphan = false := by
  unfold RunOk
  exact ⟨handed (busy ran ⟨.part .rwk, false, 0x800, 0xF, 0, false⟩) (.setting 0 1), _, _, by decide, rfl, rfl, rfl, rfl, rfl⟩

end Sys2Proof.Tests
end

/-! The scroll engine's ramp: the class of a step (R57) and the way the speed moves toward its target (R58). -/

namespace Sys2Proof.Machine

/-- The model's sign cases say what R57 says: `v` is 0, or `v` and `t` have the same sign and `t` is the larger in size. -/
theorem accelerating_iff (v t : Int) : accelerating v t = true ↔ v = 0 ∨ (0 < v * t ∧ v.natAbs < t.natAbs) := by
  simp only [accelerating, decide_eq_true_eq]
  refine or_congr_right ?_
  constructor
  · rintro (⟨hv, ht⟩ | ⟨hv, ht⟩)
    · exact ⟨mul_pos hv (hv.trans ht), by omega⟩
    · exact ⟨mul_pos_of_neg_of_neg hv (ht.trans hv), by omega⟩
  · rintro ⟨hsign, hsize⟩
    obtain ⟨hv, ht⟩ | ⟨hv, ht⟩ := mul_pos_iff.mp hsign
    · exact .inl ⟨hv, by omega⟩
    · exact .inr ⟨hv, by omega⟩

theorem ramp_of_accelerating {v t : Int} (A B : Nat) (h : accelerating v t = true) : ramp A B v t = rampStep v t A := by
  simp [ramp, h]

theorem ramp_of_not_accelerating {v t : Int} (A B : Nat) (h : ¬accelerating v t = true) :
    ramp A B v t = rampStep v t B := by
  simp [ramp, h]

theorem rampStep_of_lt {v t : Int} (rate : Nat) (h : v < t) : rampStep v t rate = v + min (rate : Int) (t - v) := if_pos h

theorem rampStep_of_gt {v t : Int} (rate : Nat) (h : t < v) : rampStep v t rate = v - min (rate : Int) (v - t) := by
  simp [rampStep, h, h.not_gt]

@[simp] theorem rampStep_self (v : Int) (rate : Nat) : rampStep v v rate = v := by
  simp [rampStep]

/-- R58 at a rate of either class. -/
theorem rampStep_moves_toward (v t : Int) (rate : Nat) :
    (v < t → rampStep v t rate = v + min (rate : Int) (t - v)) ∧
    (t < v → rampStep v t rate = v - min (rate : Int) (v - t)) ∧ (v = t → rampStep v t rate = v) :=
  ⟨rampStep_of_lt rate, rampStep_of_gt rate, fun h => h ▸ rampStep_self v rate⟩

/-- Settles O12, by the class of the step: each class fixes the rate, and the ramp moves the speed by it. -/
theorem rampRule : Obligations.RampRule := by
  intro A B v t accel rate hAccel hStop
  by_cases h : accelerating v t = true
  · rw [ramp_of_accelerating A B h, hAccel ((accelerating_iff v t).mp h)]
    exact rampStep_moves_toward v t A
  · rw [ramp_of_not_accelerating A B h, hStop (mt (accelerating_iff v t).mpr h)]
    exact rampStep_moves_toward v t B

end Sys2Proof.Machine

/-! The story jumps: the story-first row that each search finds, and the targets it gives (R79, R81, R82). -/

namespace Sys2Proof.Machine

open Sys2Proof.Config

theorem lt_length_of_firstAt {rows : List Row} {n : Nat} (h : firstAt rows n = true) : n < rows.length := by
  obtain ⟨r, hr, -⟩ := (Option.any_eq_true _ _).mp h
  exact (List.getElem?_eq_some_iff.mp hr).1

theorem nextFirst_eq_some_iff {rows : List Row} {i n : Nat} :
    nextFirst rows i = some n ↔ i < n ∧ firstAt rows n = true ∧ ∀ m, i < m → m < n → firstAt rows m = false := by
  simp only [nextFirst, List.find?_range_eq_some, List.mem_range, Bool.and_eq_true, decide_eq_true_eq, Bool.not_eq_true',
    Bool.and_eq_false_imp]
  constructor
  · rintro ⟨⟨hlt, hfirst⟩, -, hnone⟩
    exact ⟨hlt, hfirst, fun m him hmn => hnone m hmn him⟩
  · rintro ⟨hlt, hfirst, hnone⟩
    exact ⟨⟨hlt, hfirst⟩, lt_length_of_firstAt hfirst, fun m hmn him => hnone m him hmn⟩

theorem nextFirst_eq_none {rows : List Row} {i : Nat} (h : ∀ n, i < n → firstAt rows n = false) :
    nextFirst rows i = none := by
  cases hn : nextFirst rows i with
  | none => rfl
  | some n =>
    obtain ⟨hlt, hfirst, -⟩ := nextFirst_eq_some_iff.mp hn
    exact absurd hfirst (by simp [h n hlt])

theorem prevFirst_succ (rows : List Row) (i : Nat) :
    prevFirst rows (i + 1) = if firstAt rows i then some i else prevFirst rows i := by
  cases h : firstAt rows i <;> simp [prevFirst, List.range_succ, h]

/-- The search below `i` passes over rows without the story-first flag. -/
theorem prevFirst_eq_of_none_between {rows : List Row} {k i : Nat} (hk : k ≤ i)
    (h : ∀ m, k ≤ m → m < i → firstAt rows m = false) : prevFirst rows i = prevFirst rows k := by
  induction i, hk using Nat.le_induction with
  | base => rfl
  | succ i hki ih =>
    have hi : firstAt rows i = false := h i hki i.lt_succ_self
    rw [prevFirst_succ, hi, ← ih fun m hkm hmi => h m hkm (hmi.trans i.lt_succ_self)]
    rfl

theorem prevFirst_eq_some {rows : List Row} {p i : Nat} (hp : p < i) (hfirst : firstAt rows p = true)
    (hnone : ∀ m, p < m → m < i → firstAt rows m = false) : prevFirst rows i = some p := by
  rw [prevFirst_eq_of_none_between hp hnone, prevFirst_succ, if_pos hfirst]

theorem prevFirst_eq_none {rows : List Row} {i : Nat} (h : ∀ p, p < i → firstAt rows p = false) :
    prevFirst rows i = none :=
  prevFirst_eq_of_none_between i.zero_le fun m _ => h m

/-- The first row of the current story is the highest story-first index at or below the row (R79). -/
theorem currentFirst_eq {rows : List Row} {i c : Nat} (hc : c ≤ i) (hfirst : firstAt rows c = true)
    (hnone : ∀ m, c < m → m ≤ i → firstAt rows m = false) : currentFirst rows i = c := by
  have hprev : prevFirst rows (i + 1) = some c :=
    prevFirst_eq_some (Nat.lt_succ_of_le hc) hfirst fun m hcm hmi => hnone m hcm (Nat.le_of_lt_succ hmi)
  rw [currentFirst, hprev]
  rfl

theorem nextStoryTarget_of_some {rows : List Row} {i n : Nat} (h : nextFirst rows i = some n) :
    nextStoryTarget rows i = rowUnits * n := by
  simp [nextStoryTarget, h]

theorem nextStoryTarget_of_none {rows : List Row} {i : Nat} (h : nextFirst rows i = none) :
    nextStoryTarget rows i = pMax rows := by
  simp [nextStoryTarget, h]

theorem prevStoryTarget_of_after_first {rows : List Row} {i c : Nat} (h : currentFirst rows i = c) (hc : c < i) :
    prevStoryTarget rows i = rowUnits * c := by
  simp [prevStoryTarget, h, hc.ne]

theorem prevStoryTarget_at_first {rows : List Row} {c : Nat} (h : currentFirst rows c = c) :
    prevStoryTarget rows c = rowUnits * (prevFirst rows c).getD 0 := by
  cases hp : prevFirst rows c <;> simp [prevStoryTarget, h, hp]

/-- A STOP row that a forward motion takes lies strictly after the position the motion starts from (R60). -/
theorem lt_of_stopRow_eq_some {rows : List Row} {pos i : Nat} {new : Int} (h : stopRow rows pos new = some i) :
    pos < rowUnits * i := by
  have hfound := List.find?_some h
  simp only [Bool.and_eq_true, decide_eq_true_eq] at hfound
  obtain ⟨⟨hpos, -⟩, -⟩ := hfound
  exact hpos

/-- Settles O16: each search finds the story-first row that the hypotheses describe, and the strict lower side of the stop-row
test passes the row the motion starts from. -/
theorem storyTargets : Obligations.StoryTargets := by
  refine ⟨fun rows i n hlt hfirst hnone => ?next, fun rows i hnone => ?lastStory, fun rows n v i hstop => ?stop,
    fun rows i c hc hfirst hnone => ?prev⟩
  case next => exact nextStoryTarget_of_some (nextFirst_eq_some_iff.mpr ⟨hlt, hfirst, hnone⟩)
  case lastStory => exact nextStoryTarget_of_none (nextFirst_eq_none hnone)
  case stop => exact Nat.lt_of_mul_lt_mul_left (lt_of_stopRow_eq_some hstop)
  case prev =>
    have hcurrent : currentFirst rows i = c := currentFirst_eq hc hfirst hnone
    refine ⟨prevStoryTarget_of_after_first hcurrent, ?_, ?_⟩
    · rintro p rfl hp hpFirst hpNone
      rw [prevStoryTarget_at_first hcurrent, prevFirst_eq_some hp hpFirst hpNone]
      rfl
    · rintro rfl hNoStory
      rw [prevStoryTarget_at_first hcurrent, prevFirst_eq_none hNoStory]
      rfl

end Sys2Proof.Machine

/-! What a command may write: the frame of a state update by blocks, and the SRU's changes by events alone. -/

namespace Sys2Proof.Machine

/-- The SRU has accepted events, and done nothing else (R202). -/
inductive Raised (x : Sru) : Sru → Prop
  | refl : Raised x x
  | accept {y : Sru} (h : Raised x y) (e : Event) (frame : Half) (tick : Word) : Raised x (y.accept e frame tick)

namespace Raised

theorem trans {x y z : Sru} (h : Raised x y) (h' : Raised y z) : Raised x z := by
  induction h' with
  | refl => exact h
  | accept _ e f t ih => exact ih.accept e f t

/-- A field that no event touches is as before. -/
theorem field {α : Type} {x y : Sru} (h : Raised x y) (f : Sru → α)
    (hf : ∀ (z : Sru) (e : Event) (fr : Half) (t : Word), f (z.accept e fr t) = f z) : f y = f x := by
  induction h with
  | refl => rfl
  | accept _ e fr t ih => rw [hf, ih]

theorem set {x y : Sru} (h : Raised x y) : y.set = x.set := h.field (·.set) fun _ _ _ _ => rfl
theorem consume {x y : Sru} (h : Raised x y) : y.consume = x.consume := h.field (·.consume) fun _ _ _ _ => rfl
theorem status {x y : Sru} (h : Raised x y) : y.status = x.status := h.field (·.status) fun _ _ _ _ => rfl
theorem request {x y : Sru} (h : Raised x y) : y.request = x.request := h.field (·.request) fun _ _ _ _ => rfl
theorem recordWord {x y : Sru} (h : Raised x y) : y.recordWord = x.recordWord := h.field (·.recordWord) fun _ _ _ _ => rfl
theorem runState {x y : Sru} (h : Raised x y) : y.runState = x.runState := h.field (·.runState) fun _ _ _ _ => rfl
theorem resetLeft {x y : Sru} (h : Raised x y) : y.resetLeft = x.resetLeft := h.field (·.resetLeft) fun _ _ _ _ => rfl
theorem helmShare {x y : Sru} (h : Raised x y) : y.helmShare = x.helmShare := h.field (·.helmShare) fun _ _ _ _ => rfl
theorem zeroDue {x y : Sru} (h : Raised x y) : y.zeroDue = x.zeroDue := h.field (·.zeroDue) fun _ _ _ _ => rfl

end Raised

/-- A block that is not written: just as before, the SRU but for events it has accepted. -/
def kept (s u : State) : Block → Prop
  | .sru => Raised s.sru u.sru
  | b => plainlySame s u b

theorem kept_refl (s : State) (b : Block) : kept s s b := by
  cases b
  case sru => exact .refl
  all_goals rfl

theorem kept_trans {s u v : State} {b : Block} (h : kept s u b) (h' : kept u v b) : kept s v b := by
  cases b
  case sru => exact Raised.trans h h'
  all_goals exact Eq.trans h' h

/-- From `s` to `u` only the listed blocks are written, apart from events accepted at the SRU; the queue of commands stays. -/
def Writes (bs : List Block) (s u : State) : Prop := u.pending = s.pending ∧ ∀ b, b ∉ bs → kept s u b

namespace Writes

variable {bs : List Block} {s u v : State}

theorem refl (bs : List Block) (s : State) : Writes bs s s := ⟨rfl, fun b _ => kept_refl s b⟩

theorem trans (h : Writes bs s u) (h' : Writes bs u v) : Writes bs s v :=
  ⟨h'.1.trans h.1, fun b hb => kept_trans (h.2 b hb) (h'.2 b hb)⟩

theorem mono {cs : List Block} (h : Writes cs s u) (hc : cs ⊆ bs) : Writes bs s u :=
  ⟨h.1, fun b hb => h.2 b fun hm => hb (hc hm)⟩

/-- A step of an operation with a narrower frame. -/
theorem step {cs : List Block} (h : Writes bs s u) (h' : Writes cs u v) (hc : cs ⊆ bs) : Writes bs s v :=
  h.trans (h'.mono hc)

theorem mem (h : Writes bs s u) (hb : Block.mem ∉ bs) : u.mem = s.mem := h.2 _ hb
theorem rst (h : Writes bs s u) (hb : Block.rst ∉ bs) : u.rst = s.rst := h.2 _ hb
theorem ptp (h : Writes bs s u) (hb : Block.ptp ∉ bs) : u.ptp = s.ptp := h.2 _ hb
theorem port (h : Writes bs s u) (hb : Block.port ∉ bs) : u.port = s.port := h.2 _ hb
theorem rwk (h : Writes bs s u) (hb : Block.rwk ∉ bs) : u.rwk = s.rwk := h.2 _ hb
theorem ehu (h : Writes bs s u) (hb : Block.ehu ∉ bs) : u.ehu = s.ehu := h.2 _ hb
theorem sce (h : Writes bs s u) (hb : Block.sce ∉ bs) : u.sce = s.sce := h.2 _ hb
theorem hlr (h : Writes bs s u) (hb : Block.hlr ∉ bs) : u.hlr = s.hlr := h.2 _ hb
theorem helm (h : Writes bs s u) (hb : Block.helm ∉ bs) : u.helm = s.helm := h.2 _ hb
theorem ftu (h : Writes bs s u) (hb : Block.ftu ∉ bs) : u.ftu = s.ftu := h.2 _ hb
theorem hlt (h : Writes bs s u) (hb : Block.hlt ∉ bs) : u.hlt = s.hlt := h.2 _ hb
theorem sru (h : Writes bs s u) (hb : Block.sru ∉ bs) : Raised s.sru u.sru := h.2 _ hb

end Writes

theorem kept_of_plainlySame {s u : State} {b : Block} (h : plainlySame s u b) : kept s u b := by
  cases b
  case sru =>
    have hx : u.sru = s.sru := h
    rw [kept, hx]
    exact .refl
  all_goals exact h

/-- A single block replaced: every other block is kept. -/
theorem writes_one {c : Block} {s u : State} (hp : u.pending = s.pending) (h : ∀ b, b ≠ c → plainlySame s u b) :
    Writes [c] s u :=
  ⟨hp, fun b hb => kept_of_plainlySame (h b (by simpa using hb))⟩

theorem writes_withMem (s : State) (x : Memory) : Writes [.mem] s (s.withMem x) :=
  writes_one rfl fun b hb => by cases b <;> simp [plainlySame] at hb ⊢
theorem writes_withRst (s : State) (x : Rst) : Writes [.rst] s (s.withRst x) :=
  writes_one rfl fun b hb => by cases b <;> simp [plainlySame] at hb ⊢
theorem writes_withPtp (s : State) (x : Ptp) : Writes [.ptp] s (s.withPtp x) :=
  writes_one rfl fun b hb => by cases b <;> simp [plainlySame] at hb ⊢
theorem writes_withPort (s : State) (x : Port) : Writes [.port] s (s.withPort x) :=
  writes_one rfl fun b hb => by cases b <;> simp [plainlySame] at hb ⊢
theorem writes_withRwk (s : State) (x : Walker) : Writes [.rwk] s (s.withRwk x) :=
  writes_one rfl fun b hb => by cases b <;> simp [plainlySame] at hb ⊢
theorem writes_withEhu (s : State) (x : Ehu) : Writes [.ehu] s (s.withEhu x) :=
  writes_one rfl fun b hb => by cases b <;> simp [plainlySame] at hb ⊢
theorem writes_withSce (s : State) (x : Sce) : Writes [.sce] s (s.withSce x) :=
  writes_one rfl fun b hb => by cases b <;> simp [plainlySame] at hb ⊢
theorem writes_withHlr (s : State) (x : Pair Hlr) : Writes [.hlr] s (s.withHlr x) :=
  writes_one rfl fun b hb => by cases b <;> simp [plainlySame] at hb ⊢
theorem writes_withHelm (s : State) (x : Helm) : Writes [.helm] s (s.withHelm x) :=
  writes_one rfl fun b hb => by cases b <;> simp [plainlySame] at hb ⊢
theorem writes_withFtu (s : State) (x : Ftu) : Writes [.ftu] s (s.withFtu x) :=
  writes_one rfl fun b hb => by cases b <;> simp [plainlySame] at hb ⊢
theorem writes_withHlt (s : State) (x : Quad Hlt) : Writes [.hlt] s (s.withHlt x) :=
  writes_one rfl fun b hb => by cases b <;> simp [plainlySame] at hb ⊢
theorem writes_withSru (s : State) (x : Sru) : Writes [.sru] s (s.withSru x) :=
  writes_one rfl fun b hb => by cases b <;> simp [plainlySame] at hb ⊢

theorem writes_withLink (s : State) (l : Link) (x : Hlr) : Writes [.hlr] s (s.withLink l x) := writes_withHlr _ _
theorem writes_withHead (s : State) (h : Head) (x : Hlt) : Writes [.hlt] s (s.withHead h x) := writes_withHlt _ _

/-- An event raised writes no block, and is accepted at the SRU. -/
theorem writes_raise (s : State) (e : Event) : Writes [] s (raise s e) :=
  ⟨rfl, fun b _ => by
    cases b
    case sru => exact Raised.refl.accept e s.ftu.frame s.ftu.tick
    all_goals rfl⟩

theorem writes_raiseAll (s : State) (es : List Event) : Writes [] s (raiseAll s es) := by
  induction es generalizing s with
  | nil => exact .refl _ _
  | cons e rest ih => exact (writes_raise s e).trans (ih _)

namespace Writes

variable {bs : List Block} {s u v : State}

theorem withMem (h : Writes bs s u) (x : Memory) (hb : [Block.mem] ⊆ bs) : Writes bs s (u.withMem x) :=
  h.step (writes_withMem u x) hb
theorem withRst (h : Writes bs s u) (x : Rst) (hb : [Block.rst] ⊆ bs) : Writes bs s (u.withRst x) :=
  h.step (writes_withRst u x) hb
theorem withPtp (h : Writes bs s u) (x : Ptp) (hb : [Block.ptp] ⊆ bs) : Writes bs s (u.withPtp x) :=
  h.step (writes_withPtp u x) hb
theorem withPort (h : Writes bs s u) (x : Port) (hb : [Block.port] ⊆ bs) : Writes bs s (u.withPort x) :=
  h.step (writes_withPort u x) hb
theorem withRwk (h : Writes bs s u) (x : Walker) (hb : [Block.rwk] ⊆ bs) : Writes bs s (u.withRwk x) :=
  h.step (writes_withRwk u x) hb
theorem withEhu (h : Writes bs s u) (x : Ehu) (hb : [Block.ehu] ⊆ bs) : Writes bs s (u.withEhu x) :=
  h.step (writes_withEhu u x) hb
theorem withSce (h : Writes bs s u) (x : Sce) (hb : [Block.sce] ⊆ bs) : Writes bs s (u.withSce x) :=
  h.step (writes_withSce u x) hb
theorem withHlr (h : Writes bs s u) (x : Pair Hlr) (hb : [Block.hlr] ⊆ bs) : Writes bs s (u.withHlr x) :=
  h.step (writes_withHlr u x) hb
theorem withHelm (h : Writes bs s u) (x : Helm) (hb : [Block.helm] ⊆ bs) : Writes bs s (u.withHelm x) :=
  h.step (writes_withHelm u x) hb
theorem withFtu (h : Writes bs s u) (x : Ftu) (hb : [Block.ftu] ⊆ bs) : Writes bs s (u.withFtu x) :=
  h.step (writes_withFtu u x) hb
theorem withHlt (h : Writes bs s u) (x : Quad Hlt) (hb : [Block.hlt] ⊆ bs) : Writes bs s (u.withHlt x) :=
  h.step (writes_withHlt u x) hb
theorem withSru (h : Writes bs s u) (x : Sru) (hb : [Block.sru] ⊆ bs) : Writes bs s (u.withSru x) :=
  h.step (writes_withSru u x) hb
theorem withLink (h : Writes bs s u) (l : Link) (x : Hlr) (hb : [Block.hlr] ⊆ bs) :
    Writes bs s (u.withLink l x) := h.step (writes_withLink u l x) hb
theorem withHead (h : Writes bs s u) (k : Head) (x : Hlt) (hb : [Block.hlt] ⊆ bs) :
    Writes bs s (u.withHead k x) := h.step (writes_withHead u k x) hb
theorem raise (h : Writes bs s u) (e : Event) : Writes bs s (raise u e) := h.step (writes_raise u e) (List.nil_subset bs)
theorem raiseAll (h : Writes bs s u) (es : List Event) : Writes bs s (raiseAll u es) :=
  h.step (writes_raiseAll u es) (List.nil_subset bs)

/-- One of two updates, by a test. -/
theorem ite {p : Prop} {_ : Decidable p} (h : p → Writes bs s u) (h' : ¬p → Writes bs s v) :
    Writes bs s (if p then u else v) := by
  split
  · exact h ‹_›
  · exact h' ‹_›

theorem plainlySame (h : Writes bs s u) (hs : Block.sru ∈ bs ∨ u.sru = s.sru) {b : Block} (hb : b ∉ bs) :
    plainlySame s u b := by
  have hk := h.2 b hb
  cases b
  case sru => exact hs.resolve_left hb
  all_goals exact hk

/-- The frame of a command that ends in the arbiter (R173). -/
theorem onlyChanges_arbitrate (h : Writes bs s u) (hs : Block.sru ∈ bs ∨ u.sru = s.sru) :
    onlyChanges bs s (arbitrate u) :=
  Machine.onlyChanges_arbitrate h.1 fun _ hb => h.plainlySame hs hb

/-- The same for a command that raises events (R202). -/
theorem onlyRaises_arbitrate {es : List Event} (h : Writes bs s u) (he : u.sru = acceptAll s.sru u es) :
    onlyRaises bs es s (arbitrate u) := by
  have hw : Writes (.sru :: bs) s u := h.mono (List.subset_cons_self _ _)
  exact Machine.onlyRaises_arbitrate h.1 (fun _ hb => hw.plainlySame (.inl List.mem_cons_self) hb) he

end Writes

end Sys2Proof.Machine

/-! What a command can do, said once: a command either leaves the state alone, its event not having come about, or brings it to
a state on which the arbiter then acts. -/

namespace Sys2Proof.Machine

/-- The state in which the hand-over that comes next has been taken (R170). -/
abbrev afterHandover (s : State) (rest : List Handover) : State := s.withPtp { s.ptp with handovers := rest }

/-- The state in which the action a link fired first has been taken from its list (R97). -/
abbrev afterFired (s : State) (l : Link) (rest : List Fired) : State := s.withLink l { s.hlr.get l with fired := rest }

theorem takeFired_cons {s : State} {l : Link} {f : Fired} {rest : List Fired} (h : (s.hlr.get l).fired = f :: rest) :
    takeFired s l f.action = some (f, afterFired s l rest) := by
  simp [takeFired, h]

theorem takeFired_eq_some {s s1 : State} {l : Link} {a : Action} {f : Fired} (h : takeFired s l a = some (f, s1)) :
    ∃ rest, (s.hlr.get l).fired = f :: rest ∧ f.action = a ∧ s1 = afterFired s l rest := by
  unfold takeFired at h
  split at h
  · cases h
  · next g rest hg =>
    split at h
    · next ha => cases h; exact ⟨rest, hg, ha, rfl⟩
    · cases h

theorem takeSetting_eq_some {α : Type} {s s1 : State} {f : ControlWord → Option α} {x : α} {o : Nat} {w : Word}
    (h : takeSetting s f = some (x, o, w, s1)) :
    ∃ rest, s.ptp.handovers = .setting o w :: rest ∧ (controlWordAt o).bind f = some x ∧ s1 = afterHandover s rest := by
  unfold takeSetting at h
  split at h
  · next o' w' rest hh =>
    split at h
    · next y hy => cases h; exact ⟨rest, hh, hy, rfl⟩
    · cases h
  · cases h

theorem takeSetting_word {α : Type} {s s1 : State} {f : ControlWord → Option α} {word : α → ControlWord} {x : α} {o : Nat} {w : Word}
    (hw : ∀ cw x, f cw = some x → cw = word x) (h : takeSetting s f = some (x, o, w, s1)) :
    ∃ rest, s.ptp.handovers = .setting o w :: rest ∧ controlWordAt o = some (word x) ∧ s1 = afterHandover s rest := by
  obtain ⟨rest, hr, hc, rfl⟩ := takeSetting_eq_some h
  obtain ⟨cw, hcw, hf⟩ := Option.bind_eq_some_iff.mp hc
  exact ⟨rest, hr, hw cw x hf ▸ hcw, rfl⟩

/-- What follows a command that has been carried out: an access that stands presented is taken, where the command lets it, and the
arbiter acts (R169, R173). -/
def finish (taking : Bool) (u : State) : State := if taking then goOn u else arbitrate u

/-- The command is carried out and leaves `u`, one constructor for each way a command can go; the flag says whether an access that
stands presented may then be taken (R169). -/
inductive Acts (s : State) : Instr → Bool → State → Prop
  | powerOn : Acts s .powerOn false
      ((masterReset s .power).withRst { (masterReset s .power).rst with supplyGood := false })
  | powerGood : Acts s .powerGood false (initIfReady (s.withRst { s.rst with supplyGood := true }))
  | resetPinFall (dgs) (h : s.rst.pinLow = false) : Acts s (.resetPinFall dgs) false
      (s.withRst { s.rst with
        pinLow := true, judging := if s.rst.phase = .held then none else some (deglitchWidth dgs) })
  | masterReset {f lowFor} (hj : s.rst.judging = some f) (hf : f ≤ lowFor) : Acts s (.masterReset lowFor) false (masterReset s .pin)
  | initialisation : Acts s .initialisation false (pinHigh s 0)
  | initWalkStart (h : s.rst.phase = .windows ∧ s.rst.initWord = 2048 ∧ s.rst.guardNext = Config.entryCount) :
      Acts s .initWalkStart false
        (raise ((s.withRwk s.rwk.startWalk).withRst { s.rst with phase := .firstRecord }) (.reset s.rst.cause))
  | initEnd (now) (h : s.rst.phase = .ending) : Acts s (.initEnd now) true
      ((((s.withRst { s.rst with phase := .running }).withFtu
          { s.ftu.reach now with
            lastBoundary := (s.ftu.reach now).micros
            substituteAt := some ((s.ftu.reach now).micros + (s.ftu.reach now).nominal) }).withHlr
        ⟨{ s.hlr.operator with rateTimer := some 100 }, { s.hlr.presenter with rateTimer := some 100 }⟩))
  | msTick (h : s.rst.phase ≠ .held) : Acts s .msTick false
      (((s.withFtu { s.ftu.reach s.ftu.tickAt with tick := s.ftu.tick + 1, tickAt := s.ftu.tickAt + 1000 }).withRwk
        { s.rwk with settle := s.rwk.settle.tick }).withHlr ⟨s.hlr.operator.tick, s.hlr.presenter.tick⟩)
  | fsyncPulse (now) (h : s.rst.phase = .running) : Acts s (.fsyncPulse now) false
      (raiseAll (s.withFtu ((s.ftu.reach now).pulse s.sru.set.nominal).1) ((s.ftu.reach now).pulse s.sru.set.nominal).2)
  | substituteExpiry {at_} (h : s.ftu.substituteAt = some at_) (hc : s.ftu.hasCome at_ = true) : Acts s .substituteExpiry false
      (s.withFtu (s.ftu.substitute s.sru.set.nominal at_))
  | overdueDeadline (h : s.ftu.sync = .locked ∧ s.ftu.hasCome s.ftu.deadline = true) : Acts s .overdueDeadline false
      (raise (s.withFtu (s.ftu.overdue s.sru.set.nominal))
        (.syncState .substitute (s.ftu.overdue s.sru.set.nominal).nominal (s.ftu.overdue s.sru.set.nominal).lastPeriod))
  | frameStep (hs : s.ftu.due.sce = true) (hh : s.ftu.due.helm = false) (he : s.ftu.due.ehu = false) : Acts s .frameStep false
      (takeLateShare (frameStep (s.withFtu { s.ftu with due := { s.ftu.due with sce := false } })))
  | curveLoad (h : s.ftu.due.helm = true) : Acts s .curveLoad false
      ((s.withFtu { s.ftu with due := { s.ftu.due with helm := false } }).withHelm
        { s.helm with curveA := s.sru.set.curveA, curveB := s.sru.set.curveB })
  | ehuBoundary (h : s.ftu.due.ehu = true) : Acts s .ehuBoundary false
      (raiseAll ((s.withFtu { s.ftu with due := { s.ftu.due with ehu := false } }).withEhu
        (s.ehu.boundary s.sru.set.holdLimit s.ftu.tick).1) (s.ehu.boundary s.sru.set.holdLimit s.ftu.tick).2)
  | hltFrame (h) (hd : s.ftu.due.hlt.get h = true) (hs : s.ftu.due.sce = false) : Acts s (.hltFrame h) false
      (hltFrame (s.withFtu { s.ftu with due := { s.ftu.due with hlt := s.ftu.due.hlt.set h false } }) h)
  | rowReadDone {h a b} (hr : readingHead s = some (h, a)) (ho : a.orphan = false) (hb : (s.hlt.get h).build = some b) :
      Acts s .rowReadDone false ((freePort s).withHead h
        ((s.hlt.get h).onRead s.sce.active.rows s.ftu.frame b (readWord s.mem a.wa)))
  | rowReadLeft {h a} (hr : readingHead s = some (h, a)) (ho : a.orphan = true ∨ (s.hlt.get h).build = none) :
      Acts s .rowReadDone false (freePort s)
  | messageSent {h m} (hm : (s.hlt.get h).sending = some m) : Acts s (.messageSent h) false
      (if m.injected ∧ (s.hlt.get h).inject = 1
        then raise (s.withHead h ((s.hlt.get h).sent m)) (.injectDone h (s.hlt.get h).injectLoaded)
        else s.withHead h ((s.hlt.get h).sent m))
  | headAck (h bytes) (hr : s.rst.phase = .running) : Acts s (.headAck h bytes) false
      (bytes.foldl (fun s b => ackByte h (s.withFtu (s.ftu.reach b.time)) b) s)
  | statusSnapshot (hd : s.ftu.due.sru = true) (hs : s.ftu.due.sce = false) (hh : s.ftu.due.hlt.any id = false) :
      Acts s .statusSnapshot false (takeSnapshot (s.withFtu { s.ftu with due := { s.ftu.due with sru := false } }))
  | handReport (l bytes) : Acts s (.handReport l bytes) false (handBytes l bytes s)
  | byteGap (l bytes) : Acts s (.byteGap l bytes) false (handBytes l bytes s)
  | framingError (l bytes) : Acts s (.framingError l bytes) false (handBytes l bytes s)
  | take {l f rest} (h : (s.hlr.get l).fired = f :: rest) (ha : f.action = .take) : Acts s (.take l) false (judgeClaim (afterFired s l rest) (claimantOf l))
  | release {l f rest} (h : (s.hlr.get l).fired = f :: rest) (ha : f.action = .release) : Acts s (.release l) false
      (letGo (afterFired s l rest) (claimantOf l) .release)
  | pause {l f rest} (h : (s.hlr.get l).fired = f :: rest) (ha : f.action = .pause) : Acts s (.pause l) false
      (pauseAction (afterFired s l rest) (claimantOf l) f.qualifier)
  | mark {l f rest} (h : (s.hlr.get l).fired = f :: rest) (ha : f.action = .mark) (hf : f.linkActive = true) (hr : s.sce.active.rows ≠ []) :
      Acts s (.mark l) false (raiseAll ((afterFired s l rest).withSce (s.sce.setMark l (engineFrame s)).1) (s.sce.setMark l (engineFrame s)).2)
  | markIgnored {l f rest} (h : (s.hlr.get l).fired = f :: rest) (ha : f.action = .mark) (hf : f.linkActive = false ∨ s.sce.active.rows = []) :
      Acts s (.mark l) false (afterFired s l rest)
  | returnMark {l f rest} (h : (s.hlr.get l).fired = f :: rest) (ha : f.action = .returnMark) :
      Acts s (.returnMark l) false (jumpAction (afterFired s l rest) (claimantOf l) .returnMark)
  | nextStory {l f rest} (h : (s.hlr.get l).fired = f :: rest) (ha : f.action = .nextStory) :
      Acts s (.nextStory l) false (jumpAction (afterFired s l rest) (claimantOf l) .nextStory)
  | prevStory {l f rest} (h : (s.hlr.get l).fired = f :: rest) (ha : f.action = .prevStory) :
      Acts s (.prevStory l) false (jumpAction (afterFired s l rest) (claimantOf l) .prevStory)
  | pressWindowExpiry {l} {b : Fin 8} {k} (hk : (s.hlr.get l).buttons.getD b.val resetButton = k) (hw : k.window = some 0) :
      Acts s (.pressWindowExpiry l b) false (s.withLink l { s.hlr.get l with
        buttons := (s.hlr.get l).buttons.set b.val { k with presses := 0, window := none } })
  | rateWindowEnd {l} (h : (s.hlr.get l).rateDue = true) : Acts s (.rateWindowEnd l) false (endWindow s l)
  | silenceTimerExpiry {l} (h : (s.hlr.get l).silenceDue = true) : Acts s (.silenceTimerExpiry l) false (silenceExpires s l)
  | settleExpiry (h : s.rwk.settle = .running 0) : Acts s .settleExpiry false (s.withRwk s.rwk.settleExpires)
  | walkReadDone {a r} (hb : inProgress s (.part .rwk) false = some a) (ho : a.orphan = false) (hr : s.rwk.read = some r) :
      Acts s .walkReadDone false
        (raiseAll ((freePort s).withRwk (s.rwk.onRead s.sru.set.settle r (readWord s.mem a.wa)).1)
          (s.rwk.onRead s.sru.set.settle r (readWord s.mem a.wa)).2)
  | walkReadLeft {a} (hb : inProgress s (.part .rwk) false = some a) (ho : a.orphan = true ∨ s.rwk.read = none) :
      Acts s .walkReadDone false (freePort s)
  | structureWrite (ha be data) : Acts s (.structureWrite ha be data) true (present s ⟨true, ha, be, data⟩)
  | contentWrite (ha be data) : Acts s (.contentWrite ha be data) true (present s ⟨true, ha, be, data⟩)
  | commitWrite (ha be data) : Acts s (.commitWrite ha be data) true (present s ⟨true, ha, be, data⟩)
  | droppedWrite (ha be data) : Acts s (.droppedWrite ha be data) true (present s ⟨true, ha, be, data⟩)
  | accessPresented {p} (h : p.hweLow = true ∨ p.hoeLow = true) : Acts s (.accessPresented p) true
      (present s ⟨p.hweLow, p.ha, p.be, p.hd⟩)
  | spillRetry {c} (hc : s.ptp.carried = some c) (hs : c.stage = .spill true) : Acts s .spillRetry true
      (endWithdrawn (decideWrite s c.acc c.withdrawn))
  | processorWriteDone {a} (hb : inProgress s .processor true = some a) (ho : a.orphan = false) : Acts s .processorWriteDone true
      ((completeCarried
        (watchers ((freePort s).withMem (writeWord s.mem a.wa a.lanes a.data)) a.wa a.lanes a.data)))
  | processorWriteLeft {a} (hb : inProgress s .processor true = some a) (ho : a.orphan = true) : Acts s .processorWriteDone false
      ((freePort s).withMem (writeWord s.mem a.wa a.lanes a.data))
  | processorReadDone {a c} (hb : inProgress s .processor false = some a) (ho : a.orphan = false)
      (hc : s.ptp.carried = some c) (hw : c.withdrawn = false) : Acts s .processorReadDone true
      ((completeCarried ((freePort s).withPtp { s.ptp with
        readData := overlay s.ehu.queue a.wa (readWord s.mem a.wa)
        handovers := s.ptp.handovers ++ readHandover c (overlay s.ehu.queue a.wa (readWord s.mem a.wa)) })))
  | processorReadWithdrawn {a c} (hb : inProgress s .processor false = some a) (ho : a.orphan = false)
      (hc : s.ptp.carried = some c) (hw : c.withdrawn = true) : Acts s .processorReadDone true
      (completeCarried (freePort s))
  | processorReadLeft {a} (hb : inProgress s .processor false = some a) (ho : a.orphan = true ∨ s.ptp.carried = none) :
      Acts s .processorReadDone false (freePort s)
  | accessWithdrawn : Acts s .accessWithdrawn true (hcsHigh s)
  | hcsRises : Acts s .hcsRises true (hcsHigh s)
  | attentionRead {w rest} (h : s.ptp.handovers = .attention w :: rest) : Acts s .attentionRead true
      ((afterHandover s rest).withSru (s.sru.attentionRead w))
  | consumeWrite {w rest} (h : s.ptp.handovers = .consume w :: rest) : Acts s .consumeWrite true
      ((afterHandover s rest).withSru (s.sru.takeConsume w))
  | runReset {late o w rest} (h : s.ptp.handovers = .setting o w :: rest) (hc : controlWordAt o = some .runReset)
      (hw : w = 1 ∧ s.sru.runState = .idle) : Acts s (.runReset late) true (startRunReset (afterHandover s rest) late)
  | runResetIgnored {late o w rest} (h : s.ptp.handovers = .setting o w :: rest) (hc : controlWordAt o = some .runReset)
      (hw : ¬(w = 1 ∧ s.sru.runState = .idle)) : Acts s (.runReset late) true (afterHandover s rest)
  | runResetDone (h : sharesDone s = true) : Acts s .runResetDone false (finishRunReset s)
  | sruWriteDone {a k} (hb : inProgress s (.part .sru) true = some a) (ho : a.orphan = false) (hk : s.sru.request = some k) :
      Acts s .sruWriteDone false ((((freePort s).withMem (writeWord s.mem a.wa a.lanes a.data)).withRst
        (s.rst.performed k s.sru.recordWord)).withSru (s.sru.performed k))
  | sruWriteLeft {a} (hb : inProgress s (.part .sru) true = some a) (ho : a.orphan = true ∨ s.sru.request = none) :
      Acts s .sruWriteDone false ((freePort s).withMem (writeWord s.mem a.wa a.lanes a.data))
  | releaseWriteDone {a e s2} (hb : inProgress s (.part .ehu) true = some a) (ho : a.orphan = false)
      (he : s.ehu.queue.find? (fun e => e.wa == a.wa) = some e)
      (h2 : s2 = nearFullTest (staleMark (((freePort s).withMem (writeWord s.mem e.wa e.mask e.data)).withEhu
        { s.ehu with queue := s.ehu.queue.filter (fun x => x.wa != a.wa) }) a.wa)) :
      Acts s .releaseWriteDone false
        ((s2.withPtp s2.ptp.releasePerformed).withSru { s2.sru with resetLeft := s2.sru.resetLeft - 1 })
  | releaseWriteLeft {a} (hb : inProgress s (.part .ehu) true = some a)
      (ho : a.orphan = true ∨ s.ehu.queue.find? (fun e => e.wa == a.wa) = none) : Acts s .releaseWriteDone false
      ((freePort s).withMem (writeWord s.mem a.wa a.lanes a.data))
  | guardReadDone {a} (hb : inProgress s (.part .ehu) false = some a) (ho : a.orphan = false) : Acts s .guardReadDone false
      (((freePort s).withEhu (s.ehu.setGuard s.rst.guardNext (guardFlag (readWord s.mem a.wa)))).withRst
        { s.rst with guardNext := s.rst.guardNext + 1 })
  | guardReadLeft {a} (hb : inProgress s (.part .ehu) false = some a) (ho : a.orphan = true) : Acts s .guardReadDone false
      (freePort s)
  | settingWrite {c o w rest} (h : s.ptp.handovers = .setting o w :: rest) (hc : (controlWordAt o).bind plainWord = some c) : Acts s .settingWrite true
      (takePlainSetting (afterHandover s rest) o c w)
  | guardBandWrite {o w rest} (h : s.ptp.handovers = .setting o w :: rest) (hc : controlWordAt o = some .guardBand) :
      Acts s .guardBandWrite true (takeGuardBand (afterHandover s rest) o w)
  | nearFullThresholdWrite {o w rest} (h : s.ptp.handovers = .setting o w :: rest) (hc : controlWordAt o = some .nearFull) :
      Acts s .nearFullThresholdWrite true (takeNearFull (afterHandover s rest) o w)
  | helmModeWrite {o w rest} (h : s.ptp.handovers = .setting o w :: rest) (hc : controlWordAt o = some .helmMode) :
      Acts s .helmModeWrite true (takeHelmMode (afterHandover s rest) o w)
  | levelWrite {c o w rest} (h : s.ptp.handovers = .setting o w :: rest) (hc : controlWordAt o = some (.level c)) :
      Acts s .levelWrite true (takeLevel (afterHandover s rest) o c w)
  | autoEnableWrite {o w rest} (h : s.ptp.handovers = .setting o w :: rest) (hc : controlWordAt o = some .autoEnable) :
      Acts s .autoEnableWrite true (takeAutoEnable (afterHandover s rest) o w)
  | claimantSettingWrite {l f o w rest} (h : s.ptp.handovers = .setting o w :: rest)
      (hc : controlWordAt o = some (.claimant l f)) :
      Acts s .claimantSettingWrite true (takeClaimantSetting (afterHandover s rest) o l f w)
  | routeWrite {h f o w rest} (ht : s.ptp.handovers = .setting o w :: rest) (hc : controlWordAt o = some (.route h f)) :
      Acts s .routeWrite true (takeRoute (afterHandover s rest) o h f w)
  | cardWrite {c r rest} (h : s.ptp.handovers = .card c r :: rest) : Acts s .cardWrite true
      (cardStale (afterHandover s rest) c r)
  | attentionMaskWrite {o w rest} (h : s.ptp.handovers = .setting o w :: rest) (hc : controlWordAt o = some .mask) :
      Acts s .attentionMaskWrite true (takeMask (afterHandover s rest) o w)
  | interruptEnableWrite {o w rest} (h : s.ptp.handovers = .setting o w :: rest) (hc : controlWordAt o = some .intEnable) :
      Acts s .interruptEnableWrite true (takeIntEnable (afterHandover s rest) o w)
  | resetPinRise (lowFor) (h : s.rst.pinLow = true) : Acts s (.resetPinRise lowFor) false (pinHigh s lowFor)

/-- A command that is carried out ends in the arbiter. -/
theorem exec_of_acts {c : Instr} {b : Bool} {s u : State} (h : Acts s c b u) : exec c s = .next (finish b u) := by
  cases h with
  | messageSent hm => simp only [exec, execMessageSent, hm]; split <;> rfl
  | resetPinFall dgs h => simp [exec, execResetPinFall, h, done, finish]
  | @accessPresented p h =>
    obtain hw | hw := Bool.eq_false_or_eq_true p.hweLow
    · simp [exec, execAccessPresented, hw, doneTaking, finish]
    · have ho : p.hoeLow = true := by simpa [hw] using h
      simp [exec, execAccessPresented, hw, ho, doneTaking, finish]
  | rowReadLeft hr ho =>
    simp only [exec, execRowReadDone, hr]
    split
    · next h1 h2 => simp [h1, h2] at ho
    · rfl
  | walkReadLeft hb ho =>
    simp only [exec, execWalkReadDone, hb]
    split
    · next h1 h2 => simp [h1, h2] at ho
    · rfl
  | processorReadLeft hb ho =>
    simp only [exec, execProcessorReadDone, hb]
    split
    · next h1 h2 => simp [h1, h2] at ho
    · rfl
  | sruWriteLeft hb ho =>
    simp only [exec, execSruWriteDone, hb]
    split
    · next h1 h2 => simp [h1, h2] at ho
    · rfl
  | releaseWriteLeft hb ho =>
    simp only [exec, execReleaseWriteDone, hb]
    split
    · next h1 h2 => simp [h1, h2] at ho
    · rfl
  | markIgnored h ha hf =>
    simp only [exec, execMark, ← ha, takeFired_cons h]
    rw [if_neg (by rcases hf with hf | hf <;> simp [hf])]
    rfl
  | mark h ha hf hr =>
    simp only [exec, execMark, ← ha, takeFired_cons h]
    rw [if_pos (by simp [hf, hr])]
    rfl
  | runReset h hc hw =>
    simp only [exec, execRunReset, takeSetting, h, hc, Option.bind_some]
    exact if_pos hw
  | runResetIgnored h hc hw =>
    simp only [exec, execRunReset, takeSetting, h, hc, Option.bind_some]
    exact if_neg hw
  | releaseWriteDone hb ho he h2 => subst h2; simp only [exec, execReleaseWriteDone, hb, ho, he]; rfl
  | pressWindowExpiry hk hw => simp only [exec, execPressWindowExpiry, hk, hw]; rfl
  | _ =>
    simp_all [exec, takeFired, takeSetting, finish, done, doneTaking, execPowerOn, execPowerGood, execMasterReset, execInitialisation, execInitWalkStart,
      execInitEnd, execMsTick, execFsyncPulse, execSubstituteExpiry, execOverdueDeadline, execFrameStep, execCurveLoad,
      execEhuBoundary, execHltFrame, execRowReadDone, execHeadAck, execStatusSnapshot, execHandReport, execByteGap,
      execFramingError, execTake, execRelease, execPause, execReturnMark, execNextStory, execPrevStory,
      execRateWindowEnd, execSilenceTimerExpiry, execSettleExpiry, execWalkReadDone, execStructureWrite, execContentWrite,
      execCommitWrite, execDroppedWrite, execSpillRetry, execProcessorWriteDone, execProcessorReadDone, execAccessWithdrawn,
      execHcsRises, execAttentionRead, execConsumeWrite, execRunResetDone, execSruWriteDone, execGuardReadDone,
      execSettingWrite, execGuardBandWrite, execNearFullThresholdWrite, execHelmModeWrite, execLevelWrite,
      execAutoEnableWrite, execClaimantSettingWrite, execRouteWrite, execCardWrite, execAttentionMaskWrite,
      execInterruptEnableWrite, execResetPinRise]

theorem next_inj {a b : State} (h : (Host.Outcome.next a : Out) = .next b) : b = a := by cases h; rfl

theorem acts_of_done {c : Instr} {b : Bool} {s u t : State} (ha : Acts s c b u) (h : (.next (finish b u) : Out) = .next t) :
    ∃ b u, Acts s c b u ∧ t = finish b u := ⟨b, u, ha, next_inj h⟩

/-- A command that is carried out on a test, and otherwise leaves the state alone. -/
theorem acts_of_ite {c : Instr} {b : Bool} {s u t : State} {p : Prop} {_ : Decidable p} (hu : p → Acts s c b u)
    (h : (if p then .next (finish b u) else .next s : Out) = .next t) : t = s ∨ ∃ b u, Acts s c b u ∧ t = finish b u := by
  split at h
  · next hp => exact .inr (acts_of_done (hu hp) h)
  · exact .inl (next_inj h)

/-- The command leaves the state alone, its event not having come about, or is carried out. -/
abbrev Happens (c : Instr) (s t : State) : Prop := t = s ∨ ∃ b u, Acts s c b u ∧ t = finish b u

/-- An action is taken from the front of its link's list, or nothing happens (R97). -/
theorem happens_of_fired {c : Instr} {s t : State} {l : Link} {a : Action} {g : Fired → State → State}
    (he : exec c s = match takeFired s l a with | none => .next s | some (f, u) => .next (arbitrate (g f u)))
    (ha : ∀ f rest, (s.hlr.get l).fired = f :: rest → f.action = a → Acts s c false (g f (afterFired s l rest)))
    (h : exec c s = .next t) : Happens c s t := by
  rw [he] at h
  split at h
  · exact .inl (next_inj h)
  · next f u hf =>
    obtain ⟨rest, hr, hfa, rfl⟩ := takeFired_eq_some hf
    exact .inr (acts_of_done (ha f rest hr hfa) h)

/-- An access left at the port has been abandoned, or nothing of its requester's waits for it (R172). -/
theorem orphan_or_none {α : Type} {orphan : Bool} {o : Option α} (h : ∀ x, orphan = false → o = some x → False) :
    orphan = true ∨ o = none := by
  cases orphan with
  | true => exact .inl rfl
  | false => exact .inr (Option.eq_none_iff_forall_ne_some.mpr fun x hx => h x rfl hx)

theorem happens_resetPinFall {s t : State} {dgs : BitVec 2} (h : execResetPinFall dgs s = .next t) : Happens (.resetPinFall dgs) s t := by
  simp only [execResetPinFall] at h
  split at h
  · exact .inl (next_inj h)
  · next hp => exact .inr (acts_of_done (.resetPinFall dgs (by simpa using hp)) h)

theorem happens_masterReset {s t : State} {lowFor : Nat} (h : execMasterReset lowFor s = .next t) : Happens (.masterReset lowFor) s t := by
  simp only [execMasterReset] at h
  split at h
  · next f hj =>
    split at h
    · next hf => exact .inr (acts_of_done (.masterReset hj hf) h)
    · exact .inl (next_inj h)
  · exact .inl (next_inj h)

theorem happens_msTick {s t : State} (h : execMsTick s = .next t) : Happens .msTick s t := by
  simp only [execMsTick] at h
  split at h
  · exact .inl (next_inj h)
  · next hp => exact .inr (acts_of_done (.msTick hp) h)

theorem happens_substituteExpiry {s t : State} (h : execSubstituteExpiry s = .next t) : Happens .substituteExpiry s t := by
  simp only [execSubstituteExpiry] at h
  split at h
  · next at_ hat =>
    split at h
    · next hc => exact .inr (acts_of_done (.substituteExpiry hat hc) h)
    · exact .inl (next_inj h)
  · exact .inl (next_inj h)

theorem happens_frameStep {s t : State} (h : execFrameStep s = .next t) : Happens .frameStep s t := by
  simp only [execFrameStep] at h
  split at h
  · next hp =>
    simp only [Bool.and_eq_true, Bool.not_eq_true'] at hp
    exact .inr (acts_of_done (.frameStep hp.1.1 hp.1.2 hp.2) h)
  · exact .inl (next_inj h)

theorem happens_hltFrame {s t : State} {k : Head} (h : execHltFrame k s = .next t) : Happens (.hltFrame k) s t := by
  simp only [execHltFrame] at h
  split at h
  · next hp =>
    simp only [Bool.and_eq_true, Bool.not_eq_true'] at hp
    exact .inr (acts_of_done (.hltFrame k hp.1 hp.2) h)
  · exact .inl (next_inj h)

theorem happens_rowReadDone {s t : State} (h : execRowReadDone s = .next t) : Happens .rowReadDone s t := by
  simp only [execRowReadDone] at h
  split at h
  · exact .inl (next_inj h)
  · next k a hr =>
    split at h
    · next b ho hb => exact .inr (acts_of_done (.rowReadDone hr ho hb) h)
    · next hne => exact .inr (acts_of_done (.rowReadLeft hr (orphan_or_none hne)) h)

theorem happens_messageSent {s t : State} {k : Head} (h : execMessageSent k s = .next t) : Happens (.messageSent k) s t := by
  simp only [execMessageSent] at h
  split at h
  · exact .inl (next_inj h)
  · next m hm =>
    refine .inr (acts_of_done (.messageSent hm) ?_)
    split at h
    · next hi => rw [if_pos hi]; exact h
    · next hi => rw [if_neg hi]; exact h

theorem happens_statusSnapshot {s t : State} (h : execStatusSnapshot s = .next t) : Happens .statusSnapshot s t := by
  simp only [execStatusSnapshot] at h
  split at h
  · next hp =>
    simp only [Bool.and_eq_true, Bool.not_eq_true'] at hp
    exact .inr (acts_of_done (.statusSnapshot hp.1.1 hp.1.2 hp.2) h)
  · exact .inl (next_inj h)

theorem happens_mark {s t : State} {l : Link} (h : execMark l s = .next t) : Happens (.mark l) s t := by
  simp only [execMark] at h
  split at h
  · exact .inl (next_inj h)
  · next f s1 hf =>
    obtain ⟨rest, hr, ha, rfl⟩ := takeFired_eq_some hf
    split at h
    · next hm =>
      simp only [Bool.and_eq_true, Bool.not_eq_true', List.isEmpty_eq_false_iff] at hm
      exact .inr (acts_of_done (.mark hr ha hm.1 hm.2) h)
    · next hm =>
      refine .inr (acts_of_done (.markIgnored hr ha ?_) h)
      by_contra hcon
      simp only [not_or, Bool.not_eq_false] at hcon
      exact hm (by simp [hcon.1, hcon.2])

theorem happens_pressWindowExpiry {s t : State} {l : Link} {b : Fin 8} (h : execPressWindowExpiry l b s = .next t) : Happens (.pressWindowExpiry l b) s t := by
  simp only [execPressWindowExpiry] at h
  split at h
  · next hw => exact .inr (acts_of_done (.pressWindowExpiry rfl hw) h)
  · exact .inl (next_inj h)

theorem happens_walkReadDone {s t : State} (h : execWalkReadDone s = .next t) : Happens .walkReadDone s t := by
  simp only [execWalkReadDone] at h
  split at h
  · exact .inl (next_inj h)
  · next a hb =>
    split at h
    · next r ho hr => exact .inr (acts_of_done (.walkReadDone hb ho hr) h)
    · next hne => exact .inr (acts_of_done (.walkReadLeft hb (orphan_or_none hne)) h)

theorem happens_accessPresented {s t : State} {p : Presentation} (h : execAccessPresented p s = .next t) : Happens (.accessPresented p) s t := by
  by_cases hp : p.hweLow = true ∨ p.hoeLow = true
  · exact .inr ⟨_, _, .accessPresented hp, next_inj ((exec_of_acts (.accessPresented hp)).symm.trans h)⟩
  · simp only [not_or, Bool.not_eq_true] at hp
    simp only [execAccessPresented, hp.1, hp.2] at h
    exact .inl (next_inj h)

theorem happens_spillRetry {s t : State} (h : execSpillRetry s = .next t) : Happens .spillRetry s t := by
  simp only [execSpillRetry] at h
  split at h
  · next c hc =>
    split at h
    · next hs => exact .inr (acts_of_done (.spillRetry hc hs) h)
    · exact .inl (next_inj h)
  · exact .inl (next_inj h)

theorem happens_processorWriteDone {s t : State} (h : execProcessorWriteDone s = .next t) : Happens .processorWriteDone s t := by
  simp only [execProcessorWriteDone] at h
  split at h
  · exact .inl (next_inj h)
  · next a hb =>
    split at h
    · next ho => exact .inr (acts_of_done (.processorWriteLeft hb ho) h)
    · next ho => exact .inr (acts_of_done (.processorWriteDone hb (by simpa using ho)) h)

theorem happens_processorReadDone {s t : State} (h : execProcessorReadDone s = .next t) : Happens .processorReadDone s t := by
  simp only [execProcessorReadDone] at h
  split at h
  · exact .inl (next_inj h)
  · next a hb =>
    split at h
    · next c ho hc =>
      split at h
      · next hw => exact .inr (acts_of_done (.processorReadWithdrawn hb ho hc hw) h)
      · next hw => exact .inr (acts_of_done (.processorReadDone hb ho hc (by simpa using hw)) h)
    · next hne => exact .inr (acts_of_done (.processorReadLeft hb (orphan_or_none hne)) h)

theorem happens_attentionRead {s t : State} (h : execAttentionRead s = .next t) : Happens .attentionRead s t := by
  simp only [execAttentionRead] at h
  split at h
  · next w rest hh => exact .inr (acts_of_done (.attentionRead hh) h)
  · exact .inl (next_inj h)

theorem happens_consumeWrite {s t : State} (h : execConsumeWrite s = .next t) : Happens .consumeWrite s t := by
  simp only [execConsumeWrite] at h
  split at h
  · next w rest hh => exact .inr (acts_of_done (.consumeWrite hh) h)
  · exact .inl (next_inj h)

theorem happens_runReset {s t : State} {late : Bool} (h : execRunReset late s = .next t) : Happens (.runReset late) s t := by
  simp only [execRunReset] at h
  split at h
  · exact .inl (next_inj h)
  · next o w s1 hs =>
    obtain ⟨rest, hr, hc, rfl⟩ := takeSetting_word (word := fun _ => .runReset) (fun cw _ hf => by cases cw <;> cases hf; rfl) hs
    split at h
    · next hw => exact .inr (acts_of_done (.runReset hr hc hw) h)
    · next hw => exact .inr (acts_of_done (.runResetIgnored hr hc hw) h)

theorem happens_sruWriteDone {s t : State} (h : execSruWriteDone s = .next t) : Happens .sruWriteDone s t := by
  simp only [execSruWriteDone] at h
  split at h
  · exact .inl (next_inj h)
  · next a hb =>
    split at h
    · next k ho hk => exact .inr (acts_of_done (.sruWriteDone hb ho hk) h)
    · next hne => exact .inr (acts_of_done (.sruWriteLeft hb (orphan_or_none hne)) h)

theorem happens_releaseWriteDone {s t : State} (h : execReleaseWriteDone s = .next t) : Happens .releaseWriteDone s t := by
  simp only [execReleaseWriteDone] at h
  split at h
  · exact .inl (next_inj h)
  · next a hb =>
    split at h
    · next e ho he => exact .inr (acts_of_done (.releaseWriteDone hb ho he rfl) h)
    · next hne => exact .inr (acts_of_done (.releaseWriteLeft hb (orphan_or_none hne)) h)

theorem happens_guardReadDone {s t : State} (h : execGuardReadDone s = .next t) : Happens .guardReadDone s t := by
  simp only [execGuardReadDone] at h
  split at h
  · exact .inl (next_inj h)
  · next a hb =>
    split at h
    · next ho => exact .inr (acts_of_done (.guardReadLeft hb ho) h)
    · next ho => exact .inr (acts_of_done (.guardReadDone hb (by simpa using ho)) h)

theorem happens_settingWrite {s t : State} (h : execSettingWrite s = .next t) : Happens .settingWrite s t := by
  simp only [execSettingWrite] at h
  split at h
  · exact .inl (next_inj h)
  · next c o w s1 hs =>
    obtain ⟨rest, hr, hc, rfl⟩ := takeSetting_eq_some hs
    exact .inr (acts_of_done (.settingWrite hr hc) h)

theorem happens_guardBandWrite {s t : State} (h : execGuardBandWrite s = .next t) : Happens .guardBandWrite s t := by
  simp only [execGuardBandWrite] at h
  split at h
  · exact .inl (next_inj h)
  · next o w s1 hs =>
    obtain ⟨rest, hr, hc, rfl⟩ := takeSetting_word (word := fun _ => .guardBand) (fun cw _ hf => by cases cw <;> cases hf; rfl) hs
    exact .inr (acts_of_done (.guardBandWrite hr hc) h)

theorem happens_nearFullThresholdWrite {s t : State} (h : execNearFullThresholdWrite s = .next t) : Happens .nearFullThresholdWrite s t := by
  simp only [execNearFullThresholdWrite] at h
  split at h
  · exact .inl (next_inj h)
  · next o w s1 hs =>
    obtain ⟨rest, hr, hc, rfl⟩ := takeSetting_word (word := fun _ => .nearFull) (fun cw _ hf => by cases cw <;> cases hf; rfl) hs
    exact .inr (acts_of_done (.nearFullThresholdWrite hr hc) h)

theorem happens_helmModeWrite {s t : State} (h : execHelmModeWrite s = .next t) : Happens .helmModeWrite s t := by
  simp only [execHelmModeWrite] at h
  split at h
  · exact .inl (next_inj h)
  · next o w s1 hs =>
    obtain ⟨rest, hr, hc, rfl⟩ := takeSetting_word (word := fun _ => .helmMode) (fun cw _ hf => by cases cw <;> cases hf; rfl) hs
    exact .inr (acts_of_done (.helmModeWrite hr hc) h)

theorem happens_levelWrite {s t : State} (h : execLevelWrite s = .next t) : Happens .levelWrite s t := by
  simp only [execLevelWrite] at h
  split at h
  · exact .inl (next_inj h)
  · next k o w s1 hs =>
    obtain ⟨rest, hr, hc, rfl⟩ := takeSetting_word (word := ControlWord.level) (fun cw _ hf => by cases cw <;> cases hf; rfl) hs
    exact .inr (acts_of_done (.levelWrite hr hc) h)

theorem happens_autoEnableWrite {s t : State} (h : execAutoEnableWrite s = .next t) : Happens .autoEnableWrite s t := by
  simp only [execAutoEnableWrite] at h
  split at h
  · exact .inl (next_inj h)
  · next o w s1 hs =>
    obtain ⟨rest, hr, hc, rfl⟩ := takeSetting_word (word := fun _ => .autoEnable) (fun cw _ hf => by cases cw <;> cases hf; rfl) hs
    exact .inr (acts_of_done (.autoEnableWrite hr hc) h)

theorem happens_claimantSettingWrite {s t : State} (h : execClaimantSettingWrite s = .next t) : Happens .claimantSettingWrite s t := by
  simp only [execClaimantSettingWrite] at h
  split at h
  · exact .inl (next_inj h)
  · next lf o w s1 hs =>
    obtain ⟨l, f⟩ := lf
    obtain ⟨rest, hr, hc, rfl⟩ := takeSetting_word (word := fun y => .claimant y.1 y.2) (fun cw _ hf => by cases cw <;> cases hf; rfl) hs
    exact .inr (acts_of_done (.claimantSettingWrite hr hc) h)

theorem happens_routeWrite {s t : State} (h : execRouteWrite s = .next t) : Happens .routeWrite s t := by
  simp only [execRouteWrite] at h
  split at h
  · exact .inl (next_inj h)
  · next hf o w s1 hs =>
    obtain ⟨k, f⟩ := hf
    obtain ⟨rest, hr, hc, rfl⟩ := takeSetting_word (word := fun y => .route y.1 y.2) (fun cw _ hf => by cases cw <;> cases hf; rfl) hs
    exact .inr (acts_of_done (.routeWrite hr hc) h)

theorem happens_cardWrite {s t : State} (h : execCardWrite s = .next t) : Happens .cardWrite s t := by
  simp only [execCardWrite] at h
  split at h
  · next c r rest hh => exact .inr (acts_of_done (.cardWrite hh) h)
  · exact .inl (next_inj h)

theorem happens_attentionMaskWrite {s t : State} (h : execAttentionMaskWrite s = .next t) : Happens .attentionMaskWrite s t := by
  simp only [execAttentionMaskWrite] at h
  split at h
  · exact .inl (next_inj h)
  · next o w s1 hs =>
    obtain ⟨rest, hr, hc, rfl⟩ := takeSetting_word (word := fun _ => .mask) (fun cw _ hf => by cases cw <;> cases hf; rfl) hs
    exact .inr (acts_of_done (.attentionMaskWrite hr hc) h)

theorem happens_interruptEnableWrite {s t : State} (h : execInterruptEnableWrite s = .next t) : Happens .interruptEnableWrite s t := by
  simp only [execInterruptEnableWrite] at h
  split at h
  · exact .inl (next_inj h)
  · next o w s1 hs =>
    obtain ⟨rest, hr, hc, rfl⟩ := takeSetting_word (word := fun _ => .intEnable) (fun cw _ hf => by cases cw <;> cases hf; rfl) hs
    exact .inr (acts_of_done (.interruptEnableWrite hr hc) h)

/-- Every command either leaves the state alone or is carried out. -/
theorem exec_inv {c : Instr} {s t : State} (h : exec c s = .next t) : Happens c s t := by
  cases c with
  | powerOn => exact .inr (acts_of_done .powerOn h)
  | powerGood => exact .inr (acts_of_done .powerGood h)
  | resetPinFall dgs => exact happens_resetPinFall h
  | masterReset lowFor => exact happens_masterReset h
  | initialisation => exact .inr (acts_of_done .initialisation h)
  | initWalkStart => exact acts_of_ite .initWalkStart h
  | initEnd now => exact acts_of_ite (.initEnd now) h
  | msTick => exact happens_msTick h
  | fsyncPulse now => exact acts_of_ite (.fsyncPulse now) h
  | substituteExpiry => exact happens_substituteExpiry h
  | overdueDeadline => exact acts_of_ite .overdueDeadline h
  | frameStep => exact happens_frameStep h
  | curveLoad => exact acts_of_ite .curveLoad h
  | ehuBoundary => exact acts_of_ite .ehuBoundary h
  | hltFrame k => exact happens_hltFrame h
  | rowReadDone => exact happens_rowReadDone h
  | messageSent k => exact happens_messageSent h
  | headAck k bytes => exact acts_of_ite (.headAck k bytes) h
  | statusSnapshot => exact happens_statusSnapshot h
  | handReport l bytes => exact .inr (acts_of_done (.handReport l bytes) h)
  | byteGap l bytes => exact .inr (acts_of_done (.byteGap l bytes) h)
  | framingError l bytes => exact .inr (acts_of_done (.framingError l bytes) h)
  | take l => exact happens_of_fired (g := fun _ u => judgeClaim u (claimantOf l)) rfl (fun _ _ => .take) h
  | release l => exact happens_of_fired (g := fun _ u => letGo u (claimantOf l) .release) rfl (fun _ _ => .release) h
  | pause l => exact happens_of_fired (g := fun f u => pauseAction u (claimantOf l) f.qualifier) rfl (fun _ _ => .pause) h
  | mark l => exact happens_mark h
  | returnMark l => exact happens_of_fired (g := fun _ u => jumpAction u (claimantOf l) .returnMark) rfl (fun _ _ => .returnMark) h
  | nextStory l => exact happens_of_fired (g := fun _ u => jumpAction u (claimantOf l) .nextStory) rfl (fun _ _ => .nextStory) h
  | prevStory l => exact happens_of_fired (g := fun _ u => jumpAction u (claimantOf l) .prevStory) rfl (fun _ _ => .prevStory) h
  | pressWindowExpiry l b => exact happens_pressWindowExpiry h
  | rateWindowEnd l => exact acts_of_ite .rateWindowEnd h
  | silenceTimerExpiry l => exact acts_of_ite .silenceTimerExpiry h
  | settleExpiry => exact acts_of_ite .settleExpiry h
  | walkReadDone => exact happens_walkReadDone h
  | structureWrite ha be data => exact .inr (acts_of_done (.structureWrite ha be data) h)
  | contentWrite ha be data => exact .inr (acts_of_done (.contentWrite ha be data) h)
  | commitWrite ha be data => exact .inr (acts_of_done (.commitWrite ha be data) h)
  | droppedWrite ha be data => exact .inr (acts_of_done (.droppedWrite ha be data) h)
  | accessPresented p => exact happens_accessPresented h
  | spillRetry => exact happens_spillRetry h
  | processorWriteDone => exact happens_processorWriteDone h
  | processorReadDone => exact happens_processorReadDone h
  | accessWithdrawn => exact .inr (acts_of_done .accessWithdrawn h)
  | hcsRises => exact .inr (acts_of_done .hcsRises h)
  | attentionRead => exact happens_attentionRead h
  | consumeWrite => exact happens_consumeWrite h
  | runReset late => exact happens_runReset h
  | runResetDone => exact acts_of_ite .runResetDone h
  | sruWriteDone => exact happens_sruWriteDone h
  | releaseWriteDone => exact happens_releaseWriteDone h
  | guardReadDone => exact happens_guardReadDone h
  | settingWrite => exact happens_settingWrite h
  | guardBandWrite => exact happens_guardBandWrite h
  | nearFullThresholdWrite => exact happens_nearFullThresholdWrite h
  | helmModeWrite => exact happens_helmModeWrite h
  | levelWrite => exact happens_levelWrite h
  | autoEnableWrite => exact happens_autoEnableWrite h
  | claimantSettingWrite => exact happens_claimantSettingWrite h
  | routeWrite => exact happens_routeWrite h
  | cardWrite => exact happens_cardWrite h
  | attentionMaskWrite => exact happens_attentionMaskWrite h
  | interruptEnableWrite => exact happens_interruptEnableWrite h
  | resetPinRise lowFor => exact acts_of_ite (.resetPinRise lowFor) h

/-- An invariant that every way of carrying a command out keeps, that the taking of a standing access keeps, and that the arbiter
keeps, is kept by every command. -/
theorem kept_by_exec {P : State → Prop} {c : Instr} {s t : State} (hs : P s) (ha : ∀ b u, Acts s c b u → P u)
    (ht : ∀ u, P u → P (takePresented u)) (hg : ∀ u, P u → P (arbitrate u)) (h : exec c s = .next t) : P t := by
  rcases exec_inv h with rfl | ⟨b, u, hu, rfl⟩
  · exact hs
  · have hPu := ha b u hu
    cases b
    · exact hg u hPu
    · exact hg _ (ht u hPu)

end Sys2Proof.Machine

/-! The blocks each operation of the model writes. -/

namespace Sys2Proof.Machine

/-- A list of steps, each within one frame. -/
theorem writes_foldl {α : Type} {bs : List Block} (f : State → α → State) (hf : ∀ s x, Writes bs s (f s x)) (xs : List α)
    (s : State) : Writes bs s (xs.foldl f s) := by
  induction xs generalizing s with
  | nil => exact .refl _ _
  | cons x rest ih => exact (hf s x).trans (ih _)

/-! ## The port and the edit hold unit -/

theorem writes_freePort (s : State) : Writes [.port] s (freePort s) := writes_withPort s _

theorem writes_orphanOf (s : State) (r : Requester) : Writes [.port] s (orphanOf s r) :=
  .ite (fun _ => writes_withPort s _) fun _ => .refl _ _

theorem writes_recomputeOnAir (s : State) : Writes [.ehu] s (recomputeOnAir s) := writes_withEhu s _

theorem writes_nearFullTest (s : State) : Writes [.ehu] s (nearFullTest s) := (writes_withEhu s _).raiseAll _

theorem writes_staleMark (s : State) (wa : Nat) : Writes [.hlt] s (staleMark s wa) := writes_withHlt s _

theorem writes_guardUpdate (s : State) (wa : Nat) (lanes : Lanes) (data : Word) : Writes [.ehu] s (guardUpdate s wa lanes data) :=
  .ite (fun _ => writes_withEhu s _) fun _ => .refl _ _

/-! ## The processor side -/

theorem writes_carry (s : State) (a : Access) (lanes : Lanes) (w : Bool) : Writes [.ptp] s (carry s a lanes w) := writes_withPtp s _

theorem writes_commitActs (s : State) (a : Access) : Writes [.ehu] s (commitActs s a) :=
  .ite (fun _ => .refl _ _) fun _ => writes_withEhu s _

theorem writes_structureSeen (s : State) (a : Access) : Writes [.rwk] s (structureSeen s a) :=
  .ite (fun _ => .refl _ _) fun _ => writes_withRwk s _

theorem writes_carry_commitActs (s : State) (a : Access) (lanes : Lanes) (w : Bool) :
    Writes [.ptp, .ehu] s (carry (commitActs s a) a lanes w) :=
  ((Writes.refl _ s).step (writes_commitActs s a) (by decide)).step (writes_carry _ _ _ _) (by decide)

theorem writes_decideWrite (s : State) (a : Access) (w : Bool) : Writes [.ptp, .ehu] s (decideWrite s a w) := by
  unfold decideWrite
  dsimp only
  split
  · exact writes_carry_commitActs ..
  · split
    · exact ((Writes.refl _ s).withEhu _ (by decide)).trans (writes_carry_commitActs ..)
    · exact (((Writes.refl _ s).withEhu _ (by decide)).step (writes_nearFullTest _) (by decide)).trans (writes_carry_commitActs ..)
    · exact (((Writes.refl _ s).withEhu _ (by decide)).raiseAll _).withPtp _ (by decide)
    · exact writes_carry_commitActs ..

theorem writes_takeAccess (s : State) (a : Access) : Writes [.ptp, .ehu, .rwk] s (takeAccess s a) := by
  have carried (v : State) (lanes : Lanes) (h : Writes [.ptp, .ehu, .rwk] s v) : Writes [.ptp, .ehu, .rwk] s (carry v a lanes false) :=
    h.step (writes_carry _ _ _ _) (by decide)
  have seen : Writes [.ptp, .ehu, .rwk] s (structureSeen s a) := (Writes.refl _ s).step (writes_structureSeen s a) (by decide)
  unfold takeAccess
  split
  · split
    · exact carried _ _ (.refl _ _)
    · exact carried _ _ (.refl _ _)
    · exact .ite (fun _ => carried _ _ (.refl _ _)) fun _ => (carried _ _ (.refl _ _)).withPtp _ (by decide)
    · exact carried _ _ seen
    · exact seen.step (writes_decideWrite _ _ _) (by decide)
  · exact carried _ _ (.refl _ _)

theorem writes_takePresented (s : State) : Writes [.ptp, .ehu, .rwk] s (takePresented s) := by
  rcases takePresented_cases s with ⟨h, -⟩ | ⟨a, -, -, h⟩ <;> rw [h]
  · exact .refl _ _
  · exact ((Writes.refl _ s).withPtp _ (by decide)).trans (writes_takeAccess _ a)

/-- The frame of a command after which a standing access may be taken (R169). -/
theorem Writes.takePresented {bs : List Block} {s u : State} (h : Writes bs s u)
    (hb : [Block.ptp, .ehu, .rwk] ⊆ bs) : Writes bs s (takePresented u) := h.step (writes_takePresented u) hb

theorem writes_present (s : State) (a : Access) : Writes [.ptp] s (present s a) := writes_withPtp s _

theorem writes_endWithdrawn (s : State) : Writes [.ptp] s (endWithdrawn s) := by
  unfold endWithdrawn
  split
  · exact .ite (fun _ => writes_withPtp s _) fun _ => .refl _ _
  · exact .refl _ _

theorem writes_completeCarried (s : State) : Writes [.ptp] s (completeCarried s) :=
  (writes_withPtp s _).trans (writes_endWithdrawn _)

theorem writes_hcsHigh (s : State) : Writes [.ptp] s (hcsHigh s) := by
  unfold hcsHigh
  split
  · exact writes_withPtp s _
  · exact .ite (fun _ => writes_withPtp s _) fun _ => .ite (fun _ => writes_withPtp s _) fun _ => writes_withPtp s _

theorem writes_watchers (s : State) (wa : Nat) (lanes : Lanes) (data : Word) :
    Writes [.ptp, .ehu, .hlt] s (watchers s wa lanes data) := by
  have h : Writes [.ptp, .ehu, .hlt] s (guardUpdate s wa lanes data) := (Writes.refl _ s).step (writes_guardUpdate ..) (by decide)
  exact (Writes.ite (fun _ => h.step (writes_staleMark _ wa) (by decide)) fun _ => h).withPtp _ (by decide)

/-! ## The helm -/

theorem writes_receiverLost (s : State) (l : Link) : Writes [.hlr, .helm] s (receiverLost s l) :=
  (((Writes.refl _ s).withLink l _ (by decide)).withHelm _ (by decide)).raise _

theorem writes_putIntoUse (l : Link) (s : State) (u : ClaimantUpdate) : Writes [.hlr, .helm] s (putIntoUse l s u) := by
  have h (x : Helm) : Writes [.hlr, .helm] s (s.withHelm x) := (Writes.refl _ s).withHelm x (by decide)
  unfold putIntoUse
  cases u
  case button => exact (h _).withLink l _ (by decide)
  case debounce => exact (h _).withLink l _ (by decide)
  case silenceLimit => exact .ite (fun _ => ((h _).trans (writes_receiverLost _ l)).withHelm _ (by decide)) fun _ => h _
  all_goals exact h _

theorem writes_putStaged (s : State) (l : Link) : Writes [.hlr, .helm] s (putStaged s l) :=
  ((Writes.refl _ s).withHelm _ (by decide)).trans (writes_foldl _ (writes_putIntoUse l) _ _)

theorem writes_putStagedOf (s : State) (c : Claimant) : Writes [.hlr, .helm] s (putStagedOf s c) := by
  unfold putStagedOf
  split
  · exact writes_putStaged s _
  · exact .refl _ _

theorem writes_changeHolder (s : State) (old new : Option Claimant) (k : HelmCause) :
    Writes [.helm] s (changeHolder s old new k) := (writes_withHelm s _).raise _

theorem writes_releaseHolder (s : State) (c : Claimant) (k : HelmCause) : Writes [.hlr, .helm] s (releaseHolder s c k) := by
  have h (x : Helm) : Writes [.hlr, .helm] s (putStagedOf (s.withHelm x) c) :=
    ((Writes.refl _ s).withHelm x (by decide)).trans (writes_putStagedOf _ c)
  unfold releaseHolder
  dsimp only
  split
  · exact (h _).step (writes_changeHolder ..) (by decide)
  · exact ((h _).withHelm _ (by decide)).step (writes_changeHolder ..) (by decide)

theorem writes_withdraw (s : State) (c : Claimant) : Writes [.hlr, .helm] s (withdraw s c) :=
  ((Writes.refl _ s).withHelm _ (by decide)).trans (writes_putStagedOf _ c)

theorem writes_letGo (s : State) (c : Claimant) (k : HelmCause) : Writes [.hlr, .helm] s (letGo s c k) := by
  unfold letGo
  split
  · exact writes_releaseHolder ..
  · exact .refl _ _
  · exact writes_withdraw ..

theorem writes_linkLost (s : State) (l : Link) : Writes [.hlr, .helm] s (linkLost s l) :=
  (writes_receiverLost s l).trans (writes_letGo ..)

theorem writes_preempt (s : State) (old new : Claimant) (k : HelmCause) : Writes [.helm] s (preempt s old new k) :=
  (writes_withHelm s _).trans (writes_changeHolder ..)

theorem writes_judgeClaim (s : State) (c : Claimant) : Writes [.hlr, .helm] s (judgeClaim s c) := by
  have h (x : Helm) : Writes [.hlr, .helm] s (s.withHelm x) := (Writes.refl _ s).withHelm x (by decide)
  refine .ite (fun _ => h _) fun _ => .ite (fun _ => .refl _ _) fun _ => ?_
  split
  · exact (Writes.refl _ s).step (writes_changeHolder ..) (by decide)
  · exact .ite (fun _ => (Writes.refl _ s).step (writes_preempt ..) (by decide)) fun _ => (h _).trans (writes_putStagedOf _ c)

theorem writes_preemptionTest (s : State) (k : HelmCause) : Writes [.helm] s (preemptionTest s k) := by
  unfold preemptionTest
  split
  · exact .ite (fun _ => (writes_withHelm s _).trans (writes_preempt ..)) fun _ => .refl _ _
  · exact .refl _ _

theorem writes_suspendedToPending (s : State) : Writes [.hlr, .helm] s (suspendedToPending s) :=
  ((Writes.refl _ s).withHelm _ (by decide)).trans (writes_foldl _ writes_putStagedOf _ _)

theorem writes_helmRunReset (s : State) : Writes [.hlr, .helm] s (helmRunReset s) := by
  have h (x : Helm) : Writes [.hlr, .helm] s (putStaged (putStaged (s.withHelm x) .operator) .presenter) :=
    (((Writes.refl _ s).withHelm x (by decide)).trans (writes_putStaged _ _)).trans (writes_putStaged _ _)
  unfold helmRunReset
  dsimp only
  split
  · exact h _
  · exact (h _).raise _

theorem writes_takeLateShare (s : State) : Writes [.hlr, .helm, .sru] s (takeLateShare s) :=
  .ite (fun _ => ((Writes.refl _ s).step (writes_helmRunReset s) (by decide)).withSru _ (by decide)) fun _ => .refl _ _

theorem writes_pauseAction (s : State) (c : Claimant) (q : Qualifier) : Writes [.helm] s (pauseAction s c q) :=
  .ite (fun _ => writes_withHelm s _) fun _ => .refl _ _

theorem writes_jumpAction (s : State) (c : Claimant) (j : Jump) : Writes [.sce] s (jumpAction s c j) :=
  .ite (fun _ => writes_withSce s _) fun _ => .refl _ _

/-! ## The hand links -/

theorem writes_afterFired (s : State) (l : Link) (rest : List Fired) : Writes [.hlr] s (afterFired s l rest) :=
  writes_withLink s l _

theorem writes_handDeflection (s : State) (l : Link) (d : Int) : Writes [.hlr, .helm] s (handDeflection s l d) := by
  have h (x : Helm) : Writes [.hlr, .helm] s (s.withHelm x) := (Writes.refl _ s).withHelm x (by decide)
  exact .ite (fun _ => (h _).trans (writes_judgeClaim _ _)) fun _ => h _

theorem writes_reportFound (s : State) (l : Link) : Writes [.hlr] s (reportFound s l) := by
  unfold reportFound
  split
  · exact (writes_withLink s l _).raise _
  · exact (writes_withLink s l _).raise _
  · exact .refl _ _

theorem writes_clearCoast (s : State) (l : Link) : Writes [.helm] s (clearCoast s l) :=
  .ite (fun _ => writes_withHelm s _) fun _ => .refl _ _

theorem writes_takeReport (s : State) (l : Link) (n d b : Byte) : Writes [.hlr, .helm] s (takeReport s l n d b) := by
  have h1 : Writes [.hlr, .helm] s (reportFound s l) := (Writes.refl _ s).step (writes_reportFound s l) (by decide)
  have h2 := (h1.withLink l ((reportFound s l).hlr.get l).restartSilence (by decide)).step (writes_clearCoast _ l) (by decide)
  exact (((h2.withLink l _ (by decide)).trans (writes_handDeflection _ l _)).withLink l _ (by decide)).withLink l _ (by decide)

theorem writes_handByte (l : Link) (s : State) (b : RxByte) : Writes [.hlr, .helm] s (handByte l s b) := by
  have h (x : Hlr) : Writes [.hlr, .helm] s (s.withLink l x) := (Writes.refl _ s).withLink l x (by decide)
  unfold handByte
  dsimp only
  split
  · exact h _
  · refine .ite (fun _ => h _) fun _ => .ite (fun _ => h _) fun _ => ?_
    split
    · exact .ite (fun _ => (h _).trans (writes_takeReport ..)) fun _ => h _
    · exact h _

theorem writes_handBytes (l : Link) (bytes : List RxByte) (s : State) : Writes [.hlr, .helm, .ftu] s (handBytes l bytes s) :=
  .ite (fun _ => writes_foldl _ (fun s b => ((Writes.refl _ s).withFtu _ (by decide)).step (writes_handByte l _ b) (by decide)) _ _) fun _ => .refl _ _

theorem writes_endWindow (s : State) (l : Link) : Writes [.hlr] s (endWindow s l) := by
  have h (x : Hlr) : Writes [.hlr] s (s.withLink l x) := writes_withLink s l x
  exact (Writes.ite (fun _ => h _) fun _ => (h _).raise _).withLink l _ (by decide)

theorem writes_silenceExpires (s : State) (l : Link) : Writes [.hlr, .helm] s (silenceExpires s l) := by
  have h (x : Hlr) : Writes [.hlr, .helm] s (s.withLink l x) := (Writes.refl _ s).withLink l x (by decide)
  have h2 {p : Prop} {_ : Decidable p} (x : Hlr) (y : Helm) :
      Writes [.hlr, .helm] s (if p then (s.withLink l x).withHelm y else s.withLink l x) :=
    .ite (fun _ => (h x).withHelm y (by decide)) fun _ => h x
  exact .ite (fun _ => (h2 _ _).trans (writes_linkLost _ l)) fun _ => h2 _ _

/-! ## The scroll engine -/

theorem writes_installMap (s : State) : Writes [.sce, .rwk, .ehu] s (installMap s) :=
  ((((Writes.refl _ s).withSce _ (by decide)).withRwk _ (by decide)).raiseAll _).step (writes_recomputeOnAir _) (by decide)

theorem writes_frameStep (s : State) : Writes [.sce, .rwk, .ehu, .helm] s (frameStep s) := by
  have h1 : Writes [.sce, .rwk, .ehu, .helm] s (s.withSce (s.sce.load s.sru.set)) := (Writes.refl _ s).withSce _ (by decide)
  have h2 : Writes [.sce, .rwk, .ehu, .helm] s (if s.rwk.phase = .offered
      then installMap (s.withSce (s.sce.load s.sru.set)) else s.withSce (s.sce.load s.sru.set)) :=
    .ite (fun _ => h1.step (writes_installMap _) (by decide)) fun _ => h1
  exact .ite (fun _ => (h2.withSce _ (by decide)).withHelm _ (by decide)) fun _ => ((h2.withSce _ (by decide)).withHelm _ (by decide)).raiseAll _

/-! ## The prompt heads -/

theorem writes_loadInject (s : State) (h : Head) : Writes [.hlt, .sru] s (loadInject s h) :=
  .ite (fun _ => ((Writes.refl _ s).withHead h _ (by decide)).withSru _ (by decide)) fun _ => .refl _ _

theorem writes_loadRoute (s : State) (h : Head) : Writes [.hlt, .ehu] s (loadRoute s h) := by
  have h1 (x : Hlt) : Writes [.hlt, .ehu] s (s.withHead h x) := (Writes.refl _ s).withHead h x (by decide)
  have h2 {p : Prop} {_ : Decidable p} (x : Hlt) (e : Event) :
      Writes [.hlt, .ehu] s (if p then s.withHead h x else raise (s.withHead h x) e) :=
    .ite (fun _ => h1 x) fun _ => (h1 x).raise e
  exact .ite (fun _ => .ite (fun _ => (h2 _ _).step (writes_recomputeOnAir _) (by decide)) fun _ => h2 _ _) fun _ => h1 _

theorem writes_judgeLag (s : State) (h : Head) : Writes [.hlt] s (judgeLag s h) :=
  .ite (fun _ => (writes_withHead s h _).raise _) fun _ => .refl _ _

theorem writes_sendFrame (s : State) (h : Head) : Writes [.hlt, .ehu] s (sendFrame s h) := by
  have h1 (x : Hlt) : Writes [.hlt, .ehu] s (s.withHead h x) := (Writes.refl _ s).withHead h x (by decide)
  exact (Writes.ite (fun _ => (h1 _).step (writes_recomputeOnAir _) (by decide)) fun _ => h1 _).withHead h _ (by decide)

theorem writes_hltFrame (s : State) (h : Head) : Writes [.hlt, .ehu, .port, .sru] s (hltFrame s h) := by
  have h1 : Writes [.hlt, .ehu, .port, .sru] s (loadInject (loadRoute (orphanOf (s.withHead h (s.hlt.get h).close) (.hlt h)) h) h) :=
    ((((Writes.refl _ s).withHead h _ (by decide)).step (writes_orphanOf _ _) (by decide)).step
      (writes_loadRoute _ h) (by decide)).step (writes_loadInject _ h) (by decide)
  exact .ite (fun _ => h1) fun _ => (h1.step (writes_judgeLag _ h) (by decide)).step (writes_sendFrame _ h) (by decide)

theorem writes_takeAck (s : State) (h : Head) (f : Half) (n : Byte) (r : Bool) : Writes [.hlt] s (takeAck s h f n r) :=
  .ite (fun _ => .refl _ _) fun _ => .ite (fun _ => writes_withHead s h _) fun _ => (writes_withHead s h _).raise _

theorem writes_ackByte (h : Head) (s : State) (b : RxByte) : Writes [.hlt] s (ackByte h s b) := by
  refine .ite (fun _ => writes_withHead s h _) fun _ => ?_
  split
  · exact .ite (fun _ => (writes_withHead s h _).trans (writes_takeAck ..)) fun _ => writes_withHead s h _
  · exact writes_withHead s h _

theorem writes_ackBytes (h : Head) (bytes : List RxByte) (s : State) :
    Writes [.hlt, .ftu] s (bytes.foldl (fun s b => ackByte h (s.withFtu (s.ftu.reach b.time)) b) s) :=
  writes_foldl _ (fun s b => ((Writes.refl _ s).withFtu _ (by decide)).step (writes_ackByte h _ b) (by decide)) _ _

theorem writes_cardStale (s : State) (c r : Nat) : Writes [.hlt] s (cardStale s c r) := writes_withHlt s _

/-! ## The working settings -/

theorem writes_afterHandover (s : State) (rest : List Handover) : Writes [.ptp] s (afterHandover s rest) := writes_withPtp s _

theorem writes_withSettings (s : State) (c : Settings) : Writes [.sru] s (withSettings s c) := writes_withSru s _

theorem writes_reportClamp (s : State) (o n : Nat) (w : Word) : Writes [] s (reportClamp s o n w) :=
  .ite (fun _ => .refl _ _) fun _ => writes_raise s _

theorem writes_reportPlain (s : State) (o : Nat) (c : ControlWord) (w : Word) : Writes [] s (reportPlain s o c w) := by
  unfold reportPlain
  split
  · exact writes_reportClamp ..
  · exact .ite (fun _ => .refl _ _) fun _ => writes_raise s _
  · exact writes_reportClamp ..

theorem writes_takePlainSetting (s : State) (o : Nat) (c : ControlWord) (w : Word) :
    Writes [.sru] s (takePlainSetting s o c w) :=
  ((Writes.refl _ s).step (writes_reportPlain s o c w) (by decide)).trans (writes_withSettings _ _)

theorem writes_takeGuardBand (s : State) (o : Nat) (w : Word) : Writes [.sru, .ehu] s (takeGuardBand s o w) :=
  (((Writes.refl _ s).step (writes_reportClamp ..) (by decide)).step (writes_withSettings _ _) (by decide)).step (writes_recomputeOnAir _) (by decide)

theorem writes_takeNearFull (s : State) (o : Nat) (w : Word) : Writes [.sru, .ehu] s (takeNearFull s o w) :=
  (((Writes.refl _ s).step (writes_reportClamp ..) (by decide)).step (writes_withSettings _ _) (by decide)).step (writes_nearFullTest _) (by decide)

theorem writes_takeHelmMode (s : State) (o : Nat) (w : Word) : Writes [.sru, .hlr, .helm] s (takeHelmMode s o w) := by
  have h (c : Settings) : Writes [.sru, .hlr, .helm] s (withSettings (reportClamp s o (helmModeCode (helmModeOf w)) w) c) :=
    ((Writes.refl _ s).step (writes_reportClamp ..) (by decide)).step (writes_withSettings _ _) (by decide)
  unfold takeHelmMode
  dsimp only
  split
  · exact (h _).step (writes_suspendedToPending _) (by decide)
  · exact (h _).step (writes_preemptionTest _ _) (by decide)
  · exact h _

theorem writes_takeLevel (s : State) (o : Nat) (c : Claimant) (w : Word) : Writes [.sru, .helm] s (takeLevel s o c w) :=
  (((Writes.refl _ s).step (writes_reportClamp ..) (by decide)).step (writes_withSettings _ _) (by decide)).step (writes_preemptionTest _ _) (by decide)

theorem writes_takeAutoEnable (s : State) (o : Nat) (w : Word) : Writes [.sru, .hlr, .helm] s (takeAutoEnable s o w) := by
  have h (c : Settings) : Writes [.sru, .hlr, .helm] s (withSettings (reportClamp s o (flagCode (flagOf w)) w) c) :=
    ((Writes.refl _ s).step (writes_reportClamp ..) (by decide)).step (writes_withSettings _ _) (by decide)
  exact .ite (fun _ => (h _).step (writes_judgeClaim _ _) (by decide)) fun _ => (h _).step (writes_letGo _ _ _) (by decide)

theorem writes_takeClaimantSetting (s : State) (o : Nat) (l : Link) (f : ClaimantField) (w : Word) :
    Writes [.hlr, .helm] s (takeClaimantSetting s o l f w) := by
  have h : Writes [.hlr, .helm] s (if (takeClaimantWord f w).clamped
      then raise s (.settingClamped o (.ofNat 16 (takeClaimantWord f w).effective) w) else s) :=
    .ite (fun _ => (Writes.refl _ s).raise _) fun _ => .refl _ _
  unfold takeClaimantSetting
  dsimp only
  split
  · exact h.trans (writes_putIntoUse ..)
  · exact h.trans (writes_putIntoUse ..)
  · exact h.withHelm _ (by decide)

theorem writes_takeMask (s : State) (o : Nat) (w : Word) : Writes [.sru] s (takeMask s o w) :=
  ((Writes.refl _ s).step (writes_reportClamp ..) (by decide)).trans (writes_withSettings _ _)

theorem writes_takeIntEnable (s : State) (o : Nat) (w : Word) : Writes [.sru] s (takeIntEnable s o w) :=
  ((Writes.refl _ s).step (writes_reportClamp ..) (by decide)).trans (writes_withSettings _ _)

theorem writes_takeRouteNumber (s : State) (o : Nat) (h : Head) (w : Word) (n : Nat) (put : Route → Route) :
    Writes [.sru] s (takeRouteNumber s o h w n put) :=
  ((Writes.refl _ s).step (writes_reportClamp ..) (by decide)).trans (writes_withSettings _ _)

theorem writes_takeRows (s : State) (o : Nat) (h : Head) (w : Word) : Writes [.sru] s (takeRows s o h w) := by
  have h1 (n : Nat) (put : Route → Route) := writes_takeRouteNumber s o h w n put
  exact .ite (fun _ => ((h1 _ _).raise _).trans (writes_withSettings _ _)) fun _ => h1 _ _

theorem writes_takeRoute (s : State) (o : Nat) (h : Head) (f : RouteField) (w : Word) :
    Writes [.sru] s (takeRoute s o h f w) := by
  cases f
  case source =>
    exact .ite (fun _ => ((Writes.refl _ s).raise _).trans (writes_withSettings _ _)) fun _ => writes_takeRouteNumber ..
  case rows => exact writes_takeRows ..
  case inject => exact (writes_takeRouteNumber ..).trans (writes_withSettings _ _)
  all_goals exact writes_takeRouteNumber ..

/-! ## Reports and the run reset -/

theorem writes_takeSnapshot (s : State) : Writes [.port, .sru] s (takeSnapshot s) :=
  .ite (fun _ => ((Writes.refl _ s).step (writes_orphanOf s .sru) (by decide)).withSru _ (by decide)) fun _ => (Writes.refl _ s).withSru _ (by decide)

theorem writes_finishRunReset (s : State) : Writes [.sru] s (finishRunReset s) := ((Writes.refl _ s).raise _).withSru _ (by decide)

theorem writes_blockShares (s : State) : Writes [.port, .rwk, .ehu, .sce, .hlt, .sru] s (blockShares s) :=
  ((((((Writes.refl _ s).step (writes_orphanOf s .rwk) (by decide)).withRwk _ (by decide)).withEhu _ (by decide)).withSce _
    (by decide)).withHlt _ (by decide)).withSru _ (by decide)

theorem writes_startRunReset (s : State) (late : Bool) :
    Writes [.port, .rwk, .ehu, .sce, .hlt, .helm, .hlr, .sru] s (startRunReset s late) := by
  have h1 : Writes [.port, .rwk, .ehu, .sce, .hlt, .helm, .hlr, .sru] s (blockShares s) :=
    (Writes.refl _ s).step (writes_blockShares s) (by decide)
  have h2 : Writes [.port, .rwk, .ehu, .sce, .hlt, .helm, .hlr, .sru] s (if late && s.ftu.due.sce
      then (blockShares s).withSru { (blockShares s).sru with helmShare := true } else helmRunReset (blockShares s)) :=
    .ite (fun _ => h1.withSru _ (by decide)) fun _ => h1.step (writes_helmRunReset _) (by decide)
  exact .ite (fun _ => h2.step (writes_finishRunReset _) (by decide)) fun _ => h2

theorem writes_initIfReady (s : State) : Writes [.rst, .ftu] s (initIfReady s) :=
  .ite (fun _ => ((Writes.refl _ s).withRst _ (by decide)).withFtu _ (by decide)) fun _ => .refl _ _

/-! ## The blocks each command writes -/

/-- Every block. -/
def allBlocks : List Block := [.mem, .rst, .ptp, .port, .rwk, .ehu, .sce, .hlr, .helm, .ftu, .hlt, .sru]

/-- The blocks a command may write before a standing access is taken and the arbiter acts, the SRU only where it does more than accept events. -/
@[simp] def writesOf : Instr → List Block
  | .powerOn | .masterReset _ | .initialisation | .resetPinRise _ => allBlocks
  | .powerGood => [.rst, .ftu]
  | .resetPinFall _ => [.rst]
  | .initWalkStart => [.rst, .rwk]
  | .initEnd _ => [.rst, .ftu, .hlr]
  | .msTick => [.ftu, .rwk, .hlr]
  | .fsyncPulse _ | .substituteExpiry | .overdueDeadline => [.ftu]
  | .frameStep => [.sce, .ftu, .rwk, .ehu, .helm, .hlr, .sru]
  | .curveLoad => [.ftu, .helm]
  | .ehuBoundary => [.ftu, .ehu]
  | .hltFrame _ => [.ftu, .hlt, .ehu, .port, .sru]
  | .rowReadDone => [.hlt, .port]
  | .messageSent _ => [.hlt]
  | .headAck _ _ => [.hlt, .ftu]
  | .statusSnapshot => [.ftu, .port, .sru]
  | .handReport _ _ | .byteGap _ _ | .framingError _ _ => [.hlr, .helm, .ftu]
  | .take _ | .release _ | .pause _ | .silenceTimerExpiry _ => [.hlr, .helm]
  | .mark _ | .returnMark _ | .nextStory _ | .prevStory _ => [.hlr, .sce]
  | .pressWindowExpiry _ _ | .rateWindowEnd _ => [.hlr]
  | .settleExpiry => [.rwk]
  | .walkReadDone => [.rwk, .port]
  | .structureWrite _ _ _ | .contentWrite _ _ _ | .commitWrite _ _ _ | .droppedWrite _ _ _ | .accessPresented _
  | .accessWithdrawn | .hcsRises => [.ptp]
  | .spillRetry => [.ptp, .ehu]
  | .processorWriteDone => [.mem, .port, .ptp, .ehu, .hlt]
  | .processorReadDone => [.port, .ptp]
  | .runReset _ => [.port, .rwk, .ehu, .sce, .hlt, .helm, .hlr, .sru, .ptp]
  | .runResetDone => [.sru]
  | .sruWriteDone => [.mem, .port, .rst, .sru]
  | .releaseWriteDone => [.mem, .port, .ehu, .hlt, .ptp, .sru]
  | .guardReadDone => [.port, .ehu, .rst]
  | .helmModeWrite | .autoEnableWrite => [.sru, .hlr, .helm, .ptp]
  | .levelWrite => [.sru, .helm, .ptp]
  | .claimantSettingWrite => [.hlr, .helm, .ptp]
  | .cardWrite => [.hlt, .ptp]
  | .guardBandWrite | .nearFullThresholdWrite => [.sru, .ehu, .ptp]
  | .attentionRead | .consumeWrite | .settingWrite | .routeWrite | .attentionMaskWrite | .interruptEnableWrite => [.sru, .ptp]

theorem writes_allBlocks {s u : State} (h : u.pending = s.pending) : Writes allBlocks s u :=
  ⟨h, fun b hb => absurd (by cases b <;> decide) hb⟩

@[simp] theorem initIfReady_pending (s : State) : (initIfReady s).pending = s.pending := (writes_initIfReady s).1

@[simp] theorem pinHigh_pending (s : State) (n : Nat) : (pinHigh s n).pending = s.pending := by
  unfold pinHigh
  dsimp only
  rw [initIfReady_pending, State.withRst_pending]
  split
  · split <;> rfl
  · rfl

/-- A command writes no other block than those listed for it. -/
theorem acts_writes {c : Instr} {s u : State} {b : Bool} (h : Acts s c b u) : Writes (writesOf c) s u := by
  have r (bs : List Block) : Writes bs s s := .refl bs s
  cases h <;> dsimp only [writesOf]
  case powerOn => exact writes_allBlocks rfl
  case masterReset => exact writes_allBlocks rfl
  case initialisation => exact writes_allBlocks (pinHigh_pending s 0)
  case resetPinRise n h => exact writes_allBlocks (pinHigh_pending s n)
  case powerGood => exact ((r _).withRst _ (by decide)).step (writes_initIfReady _) (by decide)
  case resetPinFall => exact writes_withRst s _
  case initWalkStart => exact (((r _).withRwk _ (by decide)).withRst _ (by decide)).raise _
  case initEnd => exact ((((r _).withRst _ (by decide)).withFtu _ (by decide)).withHlr _ (by decide))
  case msTick => exact (((r _).withFtu _ (by decide)).withRwk _ (by decide)).withHlr _ (by decide)
  case fsyncPulse => exact (writes_withFtu s _).raiseAll _
  case substituteExpiry => exact writes_withFtu s _
  case overdueDeadline => exact (writes_withFtu s _).raise _
  case frameStep => exact (((r _).withFtu _ (by decide)).step (writes_frameStep _) (by decide)).step (writes_takeLateShare _) (by decide)
  case curveLoad => exact ((r _).withFtu _ (by decide)).withHelm _ (by decide)
  case ehuBoundary => exact (((r _).withFtu _ (by decide)).withEhu _ (by decide)).raiseAll _
  case hltFrame k hd hs => exact ((r _).withFtu _ (by decide)).step (writes_hltFrame _ k) (by decide)
  case rowReadDone => exact ((r _).step (writes_freePort s) (by decide)).withHead _ _ (by decide)
  case rowReadLeft => exact (r _).step (writes_freePort s) (by decide)
  case messageSent => exact .ite (fun _ => (writes_withHead s _ _).raise _) fun _ => writes_withHead s _ _
  case headAck => exact writes_ackBytes ..
  case statusSnapshot => exact ((r _).withFtu _ (by decide)).step (writes_takeSnapshot _) (by decide)
  case handReport => exact writes_handBytes ..
  case byteGap => exact writes_handBytes ..
  case framingError => exact writes_handBytes ..
  case take => exact ((r _).withLink _ _ (by decide)).trans (writes_judgeClaim ..)
  case release => exact ((r _).withLink _ _ (by decide)).trans (writes_letGo ..)
  case pause => exact ((r _).withLink _ _ (by decide)).step (writes_pauseAction ..) (by decide)
  case mark => exact (((r _).withLink _ _ (by decide)).withSce _ (by decide)).raiseAll _
  case markIgnored => exact (r _).withLink _ _ (by decide)
  case returnMark => exact ((r _).withLink _ _ (by decide)).step (writes_jumpAction ..) (by decide)
  case nextStory => exact ((r _).withLink _ _ (by decide)).step (writes_jumpAction ..) (by decide)
  case prevStory => exact ((r _).withLink _ _ (by decide)).step (writes_jumpAction ..) (by decide)
  case pressWindowExpiry => exact writes_withLink s _ _
  case rateWindowEnd => exact writes_endWindow s _
  case silenceTimerExpiry => exact writes_silenceExpires s _
  case settleExpiry => exact writes_withRwk s _
  case walkReadDone => exact (((r _).step (writes_freePort s) (by decide)).withRwk _ (by decide)).raiseAll _
  case walkReadLeft => exact (r _).step (writes_freePort s) (by decide)
  case structureWrite => exact ((r _).step (writes_present s _) (by decide))
  case contentWrite => exact ((r _).step (writes_present s _) (by decide))
  case commitWrite => exact ((r _).step (writes_present s _) (by decide))
  case droppedWrite => exact ((r _).step (writes_present s _) (by decide))
  case accessPresented => exact ((r _).step (writes_present s _) (by decide))
  case spillRetry => exact (((r _).step (writes_decideWrite ..) (by decide)).step (writes_endWithdrawn _) (by decide))
  case processorWriteDone =>
    exact (((((r _).step (writes_freePort s) (by decide)).withMem _ (by decide)).step (writes_watchers ..) (by decide)).step
      (writes_completeCarried _) (by decide))
  case processorWriteLeft => exact ((r _).step (writes_freePort s) (by decide)).withMem _ (by decide)
  case processorReadDone =>
    exact ((((r _).step (writes_freePort s) (by decide)).withPtp _ (by decide)).step (writes_completeCarried _) (by decide))
  case processorReadWithdrawn => exact (((r _).step (writes_freePort s) (by decide)).step (writes_completeCarried _) (by decide))
  case processorReadLeft => exact (r _).step (writes_freePort s) (by decide)
  case accessWithdrawn => exact ((r _).step (writes_hcsHigh s) (by decide))
  case hcsRises => exact ((r _).step (writes_hcsHigh s) (by decide))
  case attentionRead => exact (((r _).withPtp _ (by decide)).withSru _ (by decide))
  case consumeWrite => exact (((r _).withPtp _ (by decide)).withSru _ (by decide))
  case runReset => exact (((r _).withPtp _ (by decide)).step (writes_startRunReset ..) (by decide))
  case runResetIgnored => exact ((r _).withPtp _ (by decide))
  case runResetDone => exact writes_finishRunReset s
  case sruWriteDone => exact ((((r _).step (writes_freePort s) (by decide)).withMem _ (by decide)).withRst _ (by decide)).withSru _ (by decide)
  case sruWriteLeft => exact ((r _).step (writes_freePort s) (by decide)).withMem _ (by decide)
  case releaseWriteDone h2 =>
    subst h2
    exact ((((((((r _).step (writes_freePort s) (by decide)).withMem _ (by decide)).withEhu _ (by decide)).step (writes_staleMark _ _) (by decide)).step
      (writes_nearFullTest _) (by decide)).withPtp _ (by decide)).withSru _ (by decide))
  case releaseWriteLeft => exact ((r _).step (writes_freePort s) (by decide)).withMem _ (by decide)
  case guardReadDone => exact (((r _).step (writes_freePort s) (by decide)).withEhu _ (by decide)).withRst _ (by decide)
  case guardReadLeft => exact (r _).step (writes_freePort s) (by decide)
  case settingWrite => exact (((r _).withPtp _ (by decide)).step (writes_takePlainSetting ..) (by decide))
  case guardBandWrite => exact (((r _).withPtp _ (by decide)).step (writes_takeGuardBand ..) (by decide))
  case nearFullThresholdWrite => exact (((r _).withPtp _ (by decide)).step (writes_takeNearFull ..) (by decide))
  case helmModeWrite => exact (((r _).withPtp _ (by decide)).step (writes_takeHelmMode ..) (by decide))
  case levelWrite => exact (((r _).withPtp _ (by decide)).step (writes_takeLevel ..) (by decide))
  case autoEnableWrite => exact (((r _).withPtp _ (by decide)).step (writes_takeAutoEnable ..) (by decide))
  case claimantSettingWrite => exact (((r _).withPtp _ (by decide)).step (writes_takeClaimantSetting ..) (by decide))
  case routeWrite => exact (((r _).withPtp _ (by decide)).step (writes_takeRoute ..) (by decide))
  case cardWrite => exact (((r _).withPtp _ (by decide)).step (writes_cardStale ..) (by decide))
  case attentionMaskWrite => exact (((r _).withPtp _ (by decide)).step (writes_takeMask ..) (by decide))
  case interruptEnableWrite => exact (((r _).withPtp _ (by decide)).step (writes_takeIntEnable ..) (by decide))

/-- Initialisation begins at the window words, or the reset control goes on from where it stood (R176, R193). -/
theorem initIfReady_rst (s : State) : (initIfReady s).rst = s.rst ∨
    ((initIfReady s).rst.phase = .windows ∧ (initIfReady s).rst.initWord = 0) := by
  unfold initIfReady
  split
  · exact .inr ⟨rfl, rfl⟩
  · exact .inl rfl

/-- What a command that may begin a master reset leaves of the reset control and of the rest (R176, R177, R193). -/
def ResetOrNot (s u : State) : Prop :=
  ∃ v, (v = s ∨ ∃ k, v = masterReset s k) ∧ Writes [.rst, .ftu] v u ∧
    ((u.rst.phase = v.rst.phase ∧ u.rst.initWord = v.rst.initWord) ∨ (u.rst.phase = .windows ∧ u.rst.initWord = 0))

/-- A command that may begin a master reset leaves the reset control and the frame timing to what follows it. -/
theorem acts_mayReset {c : Instr} {b : Bool} {s u : State} (h : Acts s c b u) (hc : mayReset c) : ResetOrNot s u := by
  have pin (n : Nat) : ResetOrNot s (pinHigh s n) := by
    have after {v : State} (hv : v = s ∨ ∃ k, v = masterReset s k) {x : Rst}
        (hx : x.phase = v.rst.phase ∧ x.initWord = v.rst.initWord) : ResetOrNot s (initIfReady (v.withRst x)) :=
      ⟨v, hv, ((Writes.refl _ v).withRst x (by decide)).trans (writes_initIfReady _),
        (initIfReady_rst (v.withRst x)).imp_left fun hr => by rw [hr]; exact hx⟩
    unfold pinHigh
    dsimp only
    split
    · split
      · exact after (.inr ⟨.pin, rfl⟩) ⟨rfl, rfl⟩
      · exact after (.inl rfl) ⟨rfl, rfl⟩
    · exact after (.inl rfl) ⟨rfl, rfl⟩
  cases h with
  | powerOn => exact ⟨_, .inr ⟨.power, rfl⟩, (Writes.refl _ _).withRst _ (by decide), .inl ⟨rfl, rfl⟩⟩
  | masterReset => exact ⟨_, .inr ⟨.pin, rfl⟩, .refl _ _, .inl ⟨rfl, rfl⟩⟩
  | initialisation => exact pin 0
  | resetPinRise n => exact pin n
  | _ => exact absurd hc id

/-! ## The arbiter -/

theorem writes_requestSru (s : State) : Writes [.sru] s (requestSru s) :=
  .ite (fun _ => writes_withSru s _) fun _ => .refl _ _

/-- The request the arbiter leaves: the one before, or the SRU's next (R203). -/
theorem arbitrate_request (s : State) :
    (arbitrate s).sru.request = s.sru.request ∨ (arbitrate s).sru.request = sruNext s := by
  have h : (arbitrate s).sru.request = (requestSru s).sru.request := by simp [arbitrate]
  rw [h]
  unfold requestSru
  split
  · exact .inr rfl
  · exact .inl rfl

theorem sruNext_runResetZero {s : State} (h : sruNext s = some .runResetZero) : s.sru.zeroDue = true := by
  unfold sruNext at h
  repeat' split at h
  all_goals cases h
  assumption

theorem writes_clearFairness (s : State) : Writes [.port] s (clearFairness s) :=
  .ite (fun _ => .refl _ _) fun _ => writes_withPort s _

theorem writes_grantPart (s : State) : Writes [.port, .sru] s (grantPart s) := by
  unfold grantPart
  split
  · exact .refl _ _
  · split
    · exact .refl _ _
    · exact .ite (fun _ => ((Writes.refl _ s).withPort _ (by decide)).withSru _ (by decide)) fun _ => (Writes.refl _ s).withPort _ (by decide)

theorem writes_grantProcessor (s : State) (c : Carried) : Writes [.port, .ptp] s (grantProcessor s c) :=
  ((Writes.refl _ s).withPort _ (by decide)).withPtp _ (by decide)

theorem writes_grant (s : State) : Writes [.ptp, .port, .sru] s (grant s) := by
  rcases grant_cases s with h | ⟨-, -, h | ⟨c, -, h⟩⟩ <;> rw [h]
  · exact .refl _ _
  · exact (writes_grantPart s).mono (by decide)
  · exact (writes_grantProcessor s c).mono (by decide)

theorem writes_arbitrate (s : State) : Writes [.ptp, .port, .sru] s (arbitrate s) :=
  (((Writes.refl _ s).step (writes_requestSru s) (by decide)).step (writes_clearFairness _) (by decide)).trans (writes_grant _)

/-- The same with the resets apart: an invariant that a master reset establishes, and that does not look at the reset control or the
frame timing. -/
theorem kept_by_exec_reset {P : State → Prop} {c : Instr} {s t : State} (hs : P s) (hm : ∀ k, P (masterReset s k))
    (hr : ∀ v u, P v → Writes [.rst, .ftu] v u → P u) (ha : ∀ b u, Acts s c b u → ¬mayReset c → P u)
    (ht : ∀ u, P u → P (takePresented u)) (hg : ∀ u, P u → P (arbitrate u)) (h : exec c s = .next t) : P t := by
  refine kept_by_exec hs (fun b u hu => ?_) ht hg h
  by_cases hc : mayReset c
  · obtain ⟨v, rfl | ⟨k, rfl⟩, hw, -⟩ := acts_mayReset hu hc
    · exact hr _ _ hs hw
    · exact hr _ _ (hm k) hw
  · exact ha b u hu hc

end Sys2Proof.Machine

/-! The line map: the walker's bank through a walk, and the active bank (R3, R10 to R23). -/

namespace Sys2Proof.Machine

open Sys2Proof.Config

/-- The walker's part of the map invariant. -/
def WalkOk (x : Walker) : Prop :=
  bankOk x.bank ∧ (x.phase = .walking → ∀ r ∈ x.bank.rows, x.seen.getLsbD r.slot = true) ∧
  (∀ r ∈ x.read, x.phase = .walking ∧ readOk x r)

theorem mapOk_iff (s : State) : MapOk s ↔ bankOk s.sce.active ∧ WalkOk s.rwk := Iff.rfl

/-- A walk whose bank is in form and all of whose rows are marked seen, whatever it reads next. -/
def Placing (x : Walker) : Prop :=
  x.phase = .walking ∧ bankOk x.bank ∧ ∀ r ∈ x.bank.rows, x.seen.getLsbD r.slot = true

theorem bankOk_nil (n f d : Nat) : bankOk ⟨[], n, f, d⟩ := by simp [bankOk]

theorem walkOk_startWalk (x : Walker) : WalkOk x.startWalk := by
  simp [WalkOk, Walker.startWalk, bankOk_nil, readOk, entryCount]

theorem walkOk_settleExpires {x : Walker} (h : WalkOk x) : WalkOk x.settleExpires := by
  unfold Walker.settleExpires
  dsimp only
  split
  · exact walkOk_startWalk _
  · exact h

theorem walkOk_restartSettle {x : Walker} (h : WalkOk x) (n : Nat) : WalkOk (x.restartSettle n) := by
  unfold Walker.restartSettle
  split
  · exact walkOk_settleExpires h
  · exact h

theorem walkOk_structureWrite {x : Walker} (h : WalkOk x) (n : Nat) : WalkOk (x.structureWrite n) :=
  walkOk_restartSettle (x := { x with mapStale := true, rewalk := x.rewalk || x.phase == .walking }) h n

/-- A walk that has ended leaves a bank in form and asks for no read. -/
theorem walkOk_walkEnd {x : Walker} (h : bankOk x.bank) (n : Nat) : WalkOk (x.walkEnd n) := by
  unfold Walker.walkEnd
  split
  · simp [WalkOk, h]
  · split
    · refine walkOk_restartSettle ?_ n
      simp [WalkOk, bankOk_nil]
    · simp [WalkOk, h]

theorem Placing.walkOk_read {x : Walker} (h : Placing x) {r : WalkRead} (hr : readOk x r) : WalkOk { x with read := some r } := by
  obtain ⟨hw, hb, hs⟩ := h
  refine ⟨hb, fun _ => hs, fun r' h' => ?_⟩
  obtain rfl : r = r' := by simpa using h'
  exact ⟨hw, by cases r <;> exact hr⟩

theorem Placing.nextEntry {x : Walker} (h : Placing x) (n i : Nat) : WalkOk (x.nextEntry n i) := by
  unfold Walker.nextEntry
  split
  · next hi => exact h.walkOk_read hi
  · exact walkOk_walkEnd h.2.1 n

theorem Placing.chainFault {x : Walker} (h : Placing x) (n i story slot : Nat) (c : LinkFault) :
    WalkOk (x.chainFault n i story slot c).1 :=
  Placing.nextEntry (x := { x with bank := { x.bank with faults := x.bank.faults + 1 } }) h n i

theorem Placing.follow {x : Walker} (h : Placing x) (n : Nat) {i : Nat} (hi : i < entryCount) (story slot : Nat) {placed : Bool}
    (hp : placed = true → x.bank.rows ≠ []) : WalkOk (x.follow n i story slot placed).1 := by
  unfold Walker.follow
  split
  · exact h.nextEntry n i
  · split
    · exact h.chainFault ..
    · split
      · exact h.chainFault ..
      · next hs hseen => exact h.walkOk_read ⟨hi, Nat.lt_of_not_le hs, by simpa using hseen, hp⟩

theorem Placing.markSeen {x : Walker} (h : Placing x) (slot : Nat) : Placing (x.markSeen slot) :=
  ⟨h.1, h.2.1, fun r hr => by simp [Walker.markSeen, BitVec.getLsbD_or, h.2.2 r hr]⟩

theorem markSeen_getLsbD {x : Walker} {slot : Nat} (h : slot < slotCount) : (x.markSeen slot).seen.getLsbD slot = true := by
  have h' : slot < 65024 := h
  simp [Walker.markSeen, h']

/-- A slot not yet seen is placed as the next row (R11, R13, R14). -/
theorem Placing.appendRow {x : Walker} (h : Placing x) {i slot : Nat} (story : Nat) (kind : RowKind) {placed : Bool}
    (hi : i < entryCount) (hslot : slot < slotCount) (hnew : x.seen.getLsbD slot = false) (hp : placed = true → x.bank.rows ≠ [])
    (hroom : x.bank.rows.length < bankRows) : Placing ((x.markSeen slot).appendRow i story slot kind placed) := by
  obtain ⟨hw, ⟨-, hnodup, hrows, hfirst⟩, hseen⟩ := h
  have absent : ∀ r ∈ x.bank.rows, r.slot ≠ slot := fun r hr he => by
    have := hseen r hr
    rw [he, hnew] at this
    cases this
  refine ⟨hw, ⟨?_, ?_, ?_, ?_⟩, ?_⟩
  · simpa [Walker.appendRow, Walker.markSeen] using hroom
  · simpa [Walker.appendRow, Walker.markSeen, List.nodup_append, hnodup] using absent
  · intro r hr
    rcases List.mem_append.mp hr with hr | hr
    · exact hrows r hr
    · obtain rfl := List.mem_singleton.mp hr
      exact ⟨hslot, hi⟩
  · intro r hr
    cases hx : x.bank.rows with
    | nil =>
      have : placed = false := by simpa [hx] using hp
      simp only [Walker.appendRow, Walker.markSeen, hx, this, List.nil_append, List.head?_cons, Option.mem_some_iff] at hr
      rw [← hr]
      rfl
    | cons a rest =>
      refine hfirst r ?_
      simpa [Walker.appendRow, Walker.markSeen, hx] using hr
  · intro r hr
    rcases List.mem_append.mp hr with hr | hr
    · simp [Walker.appendRow, Walker.markSeen, BitVec.getLsbD_or, hseen r hr]
    · obtain rfl := List.mem_singleton.mp hr
      exact markSeen_getLsbD hslot

/-- A walk read that completes keeps the bank in form (R10 to R14). -/
theorem walkOk_onRead {x : Walker} (h : WalkOk x) {r : WalkRead} (hr : x.read = some r) (n : Nat) (w : Word) :
    WalkOk (x.onRead n r w).1 := by
  obtain ⟨hb, hs, hread⟩ := h
  obtain ⟨hw, hok⟩ := hread r hr
  have hx : Placing x := ⟨hw, hb, hs hw⟩
  unfold Walker.onRead
  cases r with
  | entryWord i =>
    dsimp only
    split
    · exact hx.nextEntry n i
    · exact hx.walkOk_read hok
  | entryFlags i story slot =>
    dsimp only
    split
    · exact hx.nextEntry n i
    · split
      · exact hx.nextEntry n i
      · exact hx.follow n hok story slot (by simp)
  | slotWord i story slot placed =>
    dsimp only
    split
    · exact hx.walkOk_read hok
    · exact hx.chainFault ..
  | slotKind i story slot next placed =>
    obtain ⟨hi, hslot, hnew, hp⟩ := hok
    dsimp only
    split
    · exact (hx.markSeen slot).follow n hi story next hp
    · split
      · next hroom =>
        refine (hx.appendRow story _ hi hslot hnew hp hroom).follow n hi story next fun _ => ?_
        simp [Walker.appendRow]
      · exact walkOk_walkEnd hb n

theorem walkOk_installed {x : Walker} {b : Bank} (hb : bankOk b) (hr : x.read = none) : WalkOk (x.installed b) := by
  unfold Walker.installed
  dsimp only
  split
  · exact walkOk_startWalk _
  · simp [WalkOk, hb, hr]

theorem setMark_active (x : Sce) (l : Link) (f : Half) : (x.setMark l f).1.active = x.active := by
  unfold Sce.setMark
  dsimp only
  split <;> rfl

@[simp] theorem jumpAction_active (s : State) (c : Claimant) (j : Jump) : (jumpAction s c j).sce.active = s.sce.active := by
  unfold jumpAction
  split <;> rfl

/-! ## A standing access taken -/

theorem structureSeen_rwk (s : State) (a : Access) : (structureSeen s a).rwk =
    if structureAccess a.ha a.be then s.rwk.structureWrite s.sru.set.settle else s.rwk := by
  unfold structureSeen
  by_cases h : structureAccess a.ha a.be = true
  · rw [if_pos h, if_neg (bne_iff_ne.mp h)]
    rfl
  · rw [if_neg h, if_pos (by simpa [structureAccess] using h)]

/-- Whatever access is taken, the walker sees a structure write and nothing else (R5, R6). -/
theorem takeAccess_rwk (s : State) (a : Access) : (takeAccess s a).rwk =
    if a.write = true ∧ structureAccess a.ha a.be = true then s.rwk.structureWrite s.sru.set.settle else s.rwk := by
  have none_of (h : structureLanesAt a.ha.toNat = 0) : structureAccess a.ha a.be = false := by simp [structureAccess, h]
  unfold takeAccess
  split
  · next hw =>
    split
    case h_1 h => simp [none_of (by simp [structureLanesAt, h]), carry]
    case h_2 h => simp [none_of (by simp [structureLanesAt, h]), carry]
    case h_3 h => simp only [none_of (by simp [structureLanesAt, h])]; split <;> simp [carry]
    case h_4 => simp [hw, carry, structureSeen_rwk]
    case h_5 => simp [hw, (writes_decideWrite _ _ _).rwk (by simp), structureSeen_rwk]
  · next hw => simp [hw, carry]

theorem takePresented_rwk (s : State) :
    (takePresented s).rwk = s.rwk ∨ (takePresented s).rwk = s.rwk.structureWrite s.sru.set.settle := by
  rcases takePresented_cases s with ⟨h, -⟩ | ⟨a, -, -, h⟩ <;> rw [h]
  · exact .inl rfl
  · rw [takeAccess_rwk]
    split
    · exact .inr rfl
    · exact .inl rfl

theorem takePresented_sce (s : State) : (takePresented s).sce = s.sce := (writes_takePresented s).sce (by simp)

/-! ## The map through the frame step and the run reset -/

theorem testStop_active (x : Sce) : x.testStop.active = x.active := by
  unfold Sce.testStop
  split
  · rfl
  · split <;> rfl

theorem install_active (x : Sce) (b : Bank) : (x.install b).1.active = b := testStop_active _

theorem step_active (x : Sce) (t : Int) : (x.step t).1.active = x.active := by
  unfold Sce.step
  split <;> exact testStop_active _

theorem installMap_sce (s : State) : (installMap s).sce = (s.sce.install s.rwk.bank).1 := by simp [installMap]

theorem installMap_rwk (s : State) : (installMap s).rwk = s.rwk.installed s.sce.active := by simp [installMap]

theorem mapOk_installMap {s : State} (h : MapOk s) (ho : s.rwk.phase = .offered) : MapOk (installMap s) := by
  obtain ⟨ha, hb, -, hread⟩ := h
  have hr : s.rwk.read = none := by
    rcases hx : s.rwk.read with _ | r
    · rfl
    · have := (hread r hx).1
      rw [ho] at this
      cases this
  rw [mapOk_iff, installMap_sce, installMap_rwk, install_active]
  exact ⟨hb, walkOk_installed ha hr⟩

theorem MapOk.congr {s u : State} (h : MapOk s) (ha : u.sce.active = s.sce.active) (hr : u.rwk = s.rwk) : MapOk u := by
  rw [mapOk_iff] at h ⊢
  rwa [ha, hr]

theorem MapOk.writes {bs : List Block} {s u : State} (h : MapOk s) (hw : Writes bs s u) (hs : Block.sce ∉ bs)
    (hr : Block.rwk ∉ bs) : MapOk u :=
  h.congr (by rw [hw.sce hs]) (hw.rwk hr)

/-- The state of a frame step after its load and its installation, if one is due (R53). -/
def afterInstall (s : State) : State :=
  if s.rwk.phase = .offered then installMap (s.withSce (s.sce.load s.sru.set)) else s.withSce (s.sce.load s.sru.set)

/-- A frame step goes on from the installation, on a map of 0 rows or on one that has rows (R53). -/
theorem frameStep_eq (s : State) : frameStep s =
    if rowCount (afterInstall s) = 0 then
      ((afterInstall s).withSce (afterInstall s).sce.emptyStep).withHelm ((afterInstall s).helm.stepTaken false)
    else
      raiseAll (((afterInstall s).withSce ((afterInstall s).sce.step (helmTargetWith s.sce.speedLimit (afterInstall s))).1).withHelm
        ((afterInstall s).helm.stepTaken ((afterInstall s).sce.step (helmTargetWith s.sce.speedLimit (afterInstall s))).2.2))
        ((afterInstall s).sce.step (helmTargetWith s.sce.speedLimit (afterInstall s))).2.1 := rfl

theorem mapOk_frameStep {s : State} (h : MapOk s) : MapOk (frameStep s) := by
  have hi : MapOk (afterInstall s) := by
    have hl : MapOk (s.withSce (s.sce.load s.sru.set)) := h
    unfold afterInstall
    split
    · next ho => exact mapOk_installMap hl ho
    · exact hl
  rw [frameStep_eq]
  split
  · exact hi.congr rfl rfl
  · exact hi.congr (by simp [step_active]) (by simp)

/-- The state of a run reset when its shares have been taken, HELM's being left for the step where it comes late (R71, R190). -/
def afterShares (s : State) (late : Bool) : State :=
  if (late && s.ftu.due.sce) = true then (blockShares s).withSru { (blockShares s).sru with helmShare := true }
  else helmRunReset (blockShares s)

/-- A run reset ends at once when nothing of it is left to do (R190). -/
theorem startRunReset_eq (s : State) (late : Bool) : startRunReset s late =
    if sharesDone (afterShares s late) then finishRunReset (afterShares s late) else afterShares s late := rfl

theorem writes_afterShares (s : State) (late : Bool) : Writes [.hlr, .helm, .sru] (blockShares s) (afterShares s late) :=
  .ite (fun _ => (Writes.refl _ _).withSru _ (by decide)) fun _ => (Writes.refl _ _).step (writes_helmRunReset _) (by decide)

/-- What follows the blocks' shares of a run reset is HELM's and the SRU's own. -/
theorem writes_startRunReset_shares (s : State) (late : Bool) :
    Writes [.hlr, .helm, .sru] (blockShares s) (startRunReset s late) := by
  rw [startRunReset_eq]
  exact .ite (fun _ => (writes_afterShares s late).step (writes_finishRunReset _) (by decide)) fun _ => writes_afterShares s late

theorem mapOk_startRunReset {s : State} (h : MapOk s) (late : Bool) : MapOk (startRunReset s late) := by
  have hb : MapOk (blockShares s) := (mapOk_iff _).mpr ⟨h.1, walkOk_startWalk _⟩
  exact hb.writes (writes_startRunReset_shares s late) (by simp) (by simp)

theorem mapOk_takePresented {s : State} (h : MapOk s) : MapOk (takePresented s) := by
  rw [mapOk_iff] at h ⊢
  rw [takePresented_sce]
  rcases takePresented_rwk s with hr | hr <;> rw [hr]
  · exact h
  · exact ⟨h.1, walkOk_structureWrite h.2 _⟩

theorem mapOk_exec {c : Instr} {s t : State} (h : MapOk s) (he : exec c s = .next t) : MapOk t := by
  refine kept_by_exec_reset h (fun k => ?_) (fun v u hv hw => hv.writes hw (by simp) (by simp)) (fun b u hu hc => ?_)
    (fun u hu => mapOk_takePresented hu) (fun u hu => hu.writes (writes_arbitrate u) (by simp) (by simp)) he
  · simp [mapOk_iff, masterReset, State.reset, resetSce, resetWalker, emptyBank, WalkOk, bankOk_nil]
  · have hw := acts_writes hu
    obtain ⟨ha, hr⟩ := (mapOk_iff s).mp h
    cases hu with
    | powerOn | masterReset | initialisation | resetPinRise => exact absurd trivial hc
    | initWalkStart => exact (mapOk_iff _).mpr ⟨ha, walkOk_startWalk _⟩
    | msTick => exact (mapOk_iff _).mpr ⟨ha, hr⟩
    | settleExpiry => exact (mapOk_iff _).mpr ⟨ha, walkOk_settleExpires hr⟩
    | walkReadDone hb ho hread => exact (mapOk_iff _).mpr ⟨by simpa using ha, by simpa using walkOk_onRead hr hread _ _⟩
    | frameStep => exact (mapOk_frameStep (h.writes (writes_withFtu s _) (by simp) (by simp))).writes (writes_takeLateShare _) (by simp) (by simp)
    | mark => exact h.congr (by simp [setMark_active]) (hw.rwk (by simp))
    | returnMark | nextStory | prevStory => exact h.congr (by simp) (hw.rwk (by simp))
    | runReset => exact mapOk_startRunReset (h.writes (writes_afterHandover s _) (by simp) (by simp)) _
    | markIgnored => exact h.writes (writes_afterFired s _ _) (by simp) (by simp)
    | walkReadLeft => exact h.writes (writes_freePort s) (by simp) (by simp)
    | runResetIgnored => exact h.writes (writes_afterHandover s _) (by simp) (by simp)
    | _ => exact h.writes hw (by simp) (by simp)

/-- Settles O25, by `MapOk` kept by each way a command can go. -/
theorem mapInvariant : Obligations.MapInvariant := fun _ _ _ h he =>
  have ht := mapOk_exec h he
  ⟨ht, ht.1.1, ht.1.2.1⟩

end Sys2Proof.Machine

/-! The working settings: what each operation makes of them, and what any command may make of them (R179 to R188). -/

namespace Sys2Proof.Machine

open Sys2Proof.Config

/-- An operation that does not write the SRU keeps the working settings. -/
theorem Writes.set {bs : List Block} {s u : State} (h : Writes bs s u) (hb : Block.sru ∉ bs) : u.sru.set = s.sru.set :=
  (h.sru hb).set

/-- What the taking of settings may make of the working settings, one constructor for each kind of setting; AUTO's enable word
only where `p` allows it. -/
inductive Retaken (p : Prop) (x : Settings) : Settings → Prop
  | refl : Retaken p x x
  | plain {y} (h : Retaken p x y) (c : ControlWord) (w : Word) : Retaken p x (y.takePlain c w)
  | guardBand {y} (h : Retaken p x y) {n : Nat} (hn : n ≤ 15) : Retaken p x { y with guardBand := n }
  | nearFull {y} (h : Retaken p x y) {n : Nat} (hn : 1 ≤ n ∧ n ≤ 64) : Retaken p x { y with nearFull := n }
  | helmMode {y} (h : Retaken p x y) (m : HelmMode) : Retaken p x { y with helmMode := m }
  | level {y} (h : Retaken p x y) (c : Claimant) (w : Word) : Retaken p x (y.setLevel c (levelTaken y c w))
  | autoEnable {y} (h : Retaken p x y) (hp : p) (on : Bool) : Retaken p x { y with autoEnable := on }
  | mask {y} (h : Retaken p x y) (m : BitVec 12) : Retaken p x { y with mask := m }
  | intEnable {y} (h : Retaken p x y) (on : Bool) : Retaken p x { y with intEnable := on }
  | injectWritten {y} (h : Retaken p x y) (q : Quad Bool) : Retaken p x { y with injectWritten := q }
  | route {y} (h : Retaken p x y) (k : Head) {r : Route} (hr : routeOk (y.routes.get k) → routeOk r)
      (ht : r.source = .test → r.source = (y.routes.get k).source ∨ testOwnedElsewhere y k = false) :
      Retaken p x { y with routes := y.routes.set k r }

theorem Retaken.of_eq {p : Prop} {x y : Settings} (h : y = x) : Retaken p x y := h ▸ .refl

/-! ## The settings each taking leaves -/

theorem withSettings_set (s : State) (c : Settings) : (withSettings s c).sru.set = c := rfl

theorem reportClamp_set (s : State) (o n : Nat) (w : Word) : (reportClamp s o n w).sru.set = s.sru.set :=
  (writes_reportClamp s o n w).set (by simp)

theorem takePlainSetting_set (s : State) (o : Nat) (c : ControlWord) (w : Word) :
    (takePlainSetting s o c w).sru.set = s.sru.set.takePlain c w := by
  have h := (writes_reportPlain s o c w).set (by simp)
  simp only [takePlainSetting, withSettings_set, h]

theorem takeGuardBand_set (s : State) (o : Nat) (w : Word) :
    (takeGuardBand s o w).sru.set = { s.sru.set with guardBand := clamp 0 15 w.toNat } := by
  have h := (writes_recomputeOnAir (withSettings (reportClamp s o (clamp 0 15 w.toNat) w)
    { (reportClamp s o (clamp 0 15 w.toNat) w).sru.set with guardBand := clamp 0 15 w.toNat })).set (by simp)
  rw [withSettings_set, reportClamp_set] at h
  rw [← h, takeGuardBand, reportClamp_set]

theorem takeNearFull_set (s : State) (o : Nat) (w : Word) :
    (takeNearFull s o w).sru.set = { s.sru.set with nearFull := clamp 1 64 w.toNat } := by
  have h := (writes_nearFullTest (withSettings (reportClamp s o (clamp 1 64 w.toNat) w)
    { (reportClamp s o (clamp 1 64 w.toNat) w).sru.set with nearFull := clamp 1 64 w.toNat })).set (by simp)
  rw [withSettings_set, reportClamp_set] at h
  rw [← h, takeNearFull, reportClamp_set]

theorem takeHelmMode_set (s : State) (o : Nat) (w : Word) :
    (takeHelmMode s o w).sru.set = { s.sru.set with helmMode := helmModeOf w } := by
  unfold takeHelmMode
  dsimp only
  split
  · rw [(writes_suspendedToPending _).set (by simp), withSettings_set, reportClamp_set]
  · rw [(writes_preemptionTest _ _).set (by simp), withSettings_set, reportClamp_set]
  · rw [withSettings_set, reportClamp_set]

theorem takeLevel_set (s : State) (o : Nat) (c : Claimant) (w : Word) :
    (takeLevel s o c w).sru.set = s.sru.set.setLevel c (levelTaken s.sru.set c w) := by
  unfold takeLevel
  rw [(writes_preemptionTest _ _).set (by simp), withSettings_set, reportClamp_set]

theorem takeAutoEnable_set (s : State) (o : Nat) (w : Word) :
    (takeAutoEnable s o w).sru.set = { s.sru.set with autoEnable := flagOf w } := by
  unfold takeAutoEnable
  dsimp only
  split
  · rw [(writes_judgeClaim _ _).set (by simp), withSettings_set, reportClamp_set]
  · rw [(writes_letGo _ _ _).set (by simp), withSettings_set, reportClamp_set]

theorem takeMask_set (s : State) (o : Nat) (w : Word) :
    (takeMask s o w).sru.set = { s.sru.set with mask := w.setWidth 12 } := by
  simp only [takeMask, withSettings_set, reportClamp_set]

theorem takeIntEnable_set (s : State) (o : Nat) (w : Word) :
    (takeIntEnable s o w).sru.set = { s.sru.set with intEnable := flagOf w } := by
  simp only [takeIntEnable, withSettings_set, reportClamp_set]

theorem takeRouteNumber_set (s : State) (o : Nat) (k : Head) (w : Word) (n : Nat) (put : Route → Route) :
    (takeRouteNumber s o k w n put).sru.set =
      { s.sru.set with routes := s.sru.set.routes.set k (put (s.sru.set.routes.get k)) } := by
  simp only [takeRouteNumber, withRoute, withSettings_set, reportClamp_set]

theorem Quad.set_set {α : Type} (q : Quad α) (k : Head) (x y : α) : (q.set k x).set k y = q.set k y := by cases k <;> rfl

/-- The route a rows word leaves: a read row beyond the rows is brought down to the last of them (R144, R187). -/
def rowsRoute (r : Route) (n : Nat) : Route := { r with rows := n, readRow := if n - 1 < r.readRow then n - 1 else r.readRow }

theorem takeRows_set (s : State) (o : Nat) (k : Head) (w : Word) : (takeRows s o k w).sru.set =
    { s.sru.set with routes := s.sru.set.routes.set k (rowsRoute (s.sru.set.routes.get k) (clamp 4 32 w.toNat)) } := by
  unfold takeRows rowsRoute
  dsimp only
  rw [takeRouteNumber_set]
  simp only [Quad.get_set]
  split
  · rw [withRoute, withSettings_set, (writes_raise _ _).set (by simp), takeRouteNumber_set]
    simp only [Quad.set_set]
  · rw [takeRouteNumber_set]

/-! ## What a route word may make of a route -/

theorem clamp_le {lo hi : Nat} (h : lo ≤ hi) (n : Nat) : clamp lo hi n ≤ hi := by unfold clamp; omega
theorem le_clamp (lo hi n : Nat) : lo ≤ clamp lo hi n := by unfold clamp; omega

theorem rowsRoute_ok {r : Route} (h : routeOk r) (n : Nat) : routeOk (rowsRoute r (clamp 4 32 n)) := by
  obtain ⟨-, -, -, hbudget⟩ := h
  have h1 := le_clamp 4 32 n
  have h2 : clamp 4 32 n ≤ 32 := clamp_le (by omega) n
  refine ⟨h1, h2, ?_, hbudget⟩
  unfold rowsRoute
  dsimp only
  split <;> omega

/-- A route field taken makes one step of the working settings, and notes an inject count written (R144 to R146, R164). -/
theorem takeRoute_retaken {p : Prop} {x : Settings} {s : State} (hx : s.sru.set = x) (o : Nat) (k : Head) (f : RouteField) (w : Word) :
    Retaken p x (takeRoute s o k f w).sru.set := by
  subst hx
  have number (n : Nat) (put : Route → Route) (hr : ∀ r, routeOk r → routeOk (put r))
      (hs : ∀ r, (put r).source = r.source) : Retaken p s.sru.set (takeRouteNumber s o k w n put).sru.set := by
    rw [takeRouteNumber_set]
    exact .route .refl k (hr _) fun _ => .inl (hs _)
  unfold takeRoute
  cases f with
  | source =>
    dsimp only
    split
    · rw [withRoute, withSettings_set, (writes_raise _ _).set (by simp)]
      exact .route .refl k id fun ht => by cases ht
    · next hn =>
      rw [takeRouteNumber_set]
      refine .route .refl k id fun ht => .inr ?_
      rcases ho : testOwnedElsewhere s.sru.set k with _ | _
      · rfl
      · exact absurd ⟨ht, ho⟩ hn
  | rows =>
    dsimp only
    rw [takeRows_set]
    exact .route .refl k (fun hr => rowsRoute_ok hr _) fun _ => .inl rfl
  | readRow =>
    dsimp only
    rw [takeRouteNumber_set]
    refine .route .refl k (fun hr => ?_) fun _ => .inl rfl
    obtain ⟨h4, h32, -, hrest⟩ := hr
    refine ⟨h4, h32, ?_, hrest⟩
    have := clamp_le (Nat.zero_le ((s.sru.set.routes.get k).rows - 1)) w.toNat
    dsimp only
    omega
  | budget =>
    exact number _ _ (fun r ⟨h4, h32, hrow, _, _, hrest⟩ => ⟨h4, h32, hrow, le_clamp _ _ _, clamp_le (by omega) _, hrest⟩) fun _ => rfl
  | stall =>
    exact number _ _ (fun r ⟨h4, h32, hrow, hb, hb', _, _, hi⟩ =>
      ⟨h4, h32, hrow, hb, hb', le_clamp _ _ _, clamp_le (by omega) _, hi⟩) fun _ => rfl
  | mirror => exact number _ _ (fun r hr => hr) fun _ => rfl
  | inject =>
    dsimp only
    rw [withSettings_set]
    have h := number (clamp 0 255 w.toNat) (fun r => { r with inject := clamp 0 255 w.toNat })
      (fun r ⟨h4, h32, hrow, hb, hb', hs, hs', _⟩ => ⟨h4, h32, hrow, hb, hb', hs, hs', clamp_le (by omega) _⟩) fun _ => rfl
    exact h.injectWritten _

/-! ## The settings through the other operations that write the SRU -/

theorem takeLateShare_set (s : State) : (takeLateShare s).sru.set = s.sru.set := by
  unfold takeLateShare
  split
  · exact (writes_helmRunReset s).set (by simp)
  · rfl

theorem finishRunReset_set (s : State) : (finishRunReset s).sru.set = s.sru.set := rfl

theorem afterShares_set (s : State) (late : Bool) : (afterShares s late).sru.set = s.sru.set := by
  unfold afterShares
  split
  · rfl
  · exact (writes_helmRunReset (blockShares s)).set (by simp)

theorem startRunReset_set (s : State) (late : Bool) : (startRunReset s late).sru.set = s.sru.set := by
  rw [startRunReset_eq]
  split
  · rw [finishRunReset_set, afterShares_set]
  · exact afterShares_set s late

theorem takeSnapshot_set (s : State) : (takeSnapshot s).sru.set = s.sru.set := by unfold takeSnapshot; dsimp only; split <;> rfl

theorem performed_set (x : Sru) (k : SruAccess) : (x.performed k).set = x.set := by
  unfold Sru.performed
  split
  · split <;> rfl
  all_goals rfl

theorem hltFrame_set {p : Prop} {x : Settings} {s : State} (hx : s.sru.set = x) (k : Head) : Retaken p x (hltFrame s k).sru.set := by
  subst hx
  have inject (v : State) : Retaken p v.sru.set (loadInject v k).sru.set := by
    unfold loadInject
    split
    · exact Retaken.refl.injectWritten _
    · exact .refl
  have before : (loadRoute (orphanOf (s.withHead k (s.hlt.get k).close) (.hlt k)) k).sru.set = s.sru.set := by
    rw [(writes_loadRoute _ k).set (by simp), (writes_orphanOf _ _).set (by simp)]
    rfl
  have h := inject (loadRoute (orphanOf (s.withHead k (s.hlt.get k).close) (.hlt k)) k)
  rw [before] at h
  unfold hltFrame
  dsimp only
  split
  · exact h
  · rw [(writes_sendFrame _ k).set (by simp), (writes_judgeLag _ k).set (by simp)]
    exact h

/-- Short of a master reset, a command makes of the working settings nothing but what takes settings. -/
theorem acts_retaken {c : Instr} {b : Bool} {s u : State} (h : Acts s c b u) (hc : ¬mayReset c) :
    Retaken (c = .autoEnableWrite) s.sru.set u.sru.set := by
  have hw := acts_writes h
  cases h with
  | powerOn | masterReset | initialisation | resetPinRise => exact absurd trivial hc
  | frameStep =>
    refine .of_eq ?_
    rw [takeLateShare_set, (writes_frameStep _).set (by simp)]
    rfl
  | hltFrame k => exact hltFrame_set (by rfl) k
  | statusSnapshot => exact .of_eq (takeSnapshot_set _)
  | attentionRead => exact .refl
  | consumeWrite => exact .refl
  | runReset => exact .of_eq (startRunReset_set _ _)
  | runResetIgnored => exact .refl
  | runResetDone => exact .refl
  | sruWriteDone => exact .of_eq (performed_set _ _)
  | sruWriteLeft => exact .refl
  | releaseWriteDone _ _ _ h2 =>
    subst h2
    refine .of_eq ?_
    exact (writes_nearFullTest _).set (by simp)
  | releaseWriteLeft => exact .refl
  | settingWrite => rw [takePlainSetting_set]; exact Retaken.refl.plain _ _
  | guardBandWrite => rw [takeGuardBand_set]; exact Retaken.refl.guardBand (clamp_le (by omega) _)
  | nearFullThresholdWrite => rw [takeNearFull_set]; exact Retaken.refl.nearFull ⟨le_clamp _ _ _, clamp_le (by omega) _⟩
  | helmModeWrite => rw [takeHelmMode_set]; exact Retaken.refl.helmMode _
  | levelWrite => rw [takeLevel_set]; exact Retaken.refl.level _ _
  | autoEnableWrite => rw [takeAutoEnable_set]; exact Retaken.refl.autoEnable rfl _
  | routeWrite => exact takeRoute_retaken (by rfl) _ _ _ _
  | attentionMaskWrite => rw [takeMask_set]; exact Retaken.refl.mask _
  | interruptEnableWrite => rw [takeIntEnable_set]; exact Retaken.refl.intEnable _
  | _ => exact .of_eq (hw.set (by simp))

theorem takePlain_autoEnable (x : Settings) (c : ControlWord) (w : Word) : (x.takePlain c w).autoEnable = x.autoEnable := by
  unfold Settings.takePlain
  dsimp only
  split <;> rfl

theorem Retaken.autoEnable_eq {p : Prop} {x y : Settings} (h : Retaken p x y) (hp : ¬p) : y.autoEnable = x.autoEnable := by
  induction h with
  | refl => rfl
  | plain _ c w ih => rw [takePlain_autoEnable, ih]
  | level _ c w ih => cases c <;> exact ih
  | autoEnable _ hp' => exact absurd hp' hp
  | _ => assumption

end Sys2Proof.Machine

/-! The position, the speed and the marks (R49, R50, R56, R73). -/

namespace Sys2Proof.Machine

open Sys2Proof.Config

theorem Retaken.speedLimit {p : Prop} {x y : Settings} (h : Retaken p x y) (hx : x.speedLimit ≤ 32767) : y.speedLimit ≤ 32767 := by
  induction h with
  | refl => exact hx
  | plain _ c w ih =>
    unfold Settings.takePlain
    dsimp only
    split
    case h_4 => exact clamp_le (by simp [plainRange]) _
    all_goals exact ih
  | level _ c _ ih => cases c <;> exact ih
  | _ => assumption

/-! ## The engine's speed (R56 to R58) -/

theorem limitSpeed_natAbs (limit : Nat) (v : Int) : (limitSpeed limit v).natAbs ≤ limit := by
  unfold limitSpeed clampInt
  omega

/-- The ramp stays between the speed it starts from and its target (R58). -/
theorem rampStep_natAbs {v t : Int} {limit : Nat} (hv : v.natAbs ≤ limit) (ht : t.natAbs ≤ limit) (rate : Nat) :
    (rampStep v t rate).natAbs ≤ limit := by
  unfold rampStep
  split
  · omega
  · split <;> omega

theorem rampedSpeed_natAbs (x : Sce) (t : Int) : (x.rampedSpeed t).natAbs ≤ x.speedLimit :=
  rampStep_natAbs (limitSpeed_natAbs _ _) (limitSpeed_natAbs _ _) _

/-! ## The engine's position (R49, R59 to R62) -/

theorem le_pMax_of_lt {rows : List Row} {i : Nat} (h : i < rows.length) : rowUnits * i ≤ pMax rows :=
  Nat.mul_le_mul_left _ (by omega)

theorem row_lt_of_le_pMax {rows : List Row} {pos : Nat} (hr : rows ≠ []) (h : pos ≤ pMax rows) : pos / rowUnits < rows.length := by
  have hl : 0 < rows.length := List.length_pos_iff.mpr hr
  unfold pMax rowUnits at *
  omega

theorem stopRow_lt {rows : List Row} {pos i : Nat} {new : Int} (h : stopRow rows pos new = some i) : i < rows.length :=
  List.mem_range.mp (List.mem_of_find?_eq_some h)

theorem moveBy_pos_le {rows : List Row} (pos : Nat) (v : Int) : (moveBy rows pos v).pos ≤ pMax rows := by
  unfold moveBy
  split
  · next i hi =>
    split at hi
    · exact le_pMax_of_lt (stopRow_lt hi)
    · cases hi
  · split
    · exact Nat.zero_le _
    · split
      · exact le_rfl
      · dsimp only
        omega

theorem moveBy_speed (rows : List Row) (pos : Nat) (v : Int) : (moveBy rows pos v).speed = 0 ∨ (moveBy rows pos v).speed = v := by
  unfold moveBy
  split
  · exact .inl rfl
  · split
    · exact .inl rfl
    · split
      · exact .inl rfl
      · exact .inr rfl

/-- The engine's part of the position invariant. -/
def Placed (x : Sce) : Prop :=
  (x.active.rows = [] → x.pos = 0 ∧ x.speed = 0) ∧ x.pos ≤ pMax x.active.rows ∧ x.speed.natAbs ≤ x.speedLimit

theorem positionOk_iff (s : State) :
    PositionOk s ↔ Placed s.sce ∧ s.sce.speedLimit ≤ 32767 ∧ s.sru.set.speedLimit ≤ 32767 := by
  simp only [PositionOk, Placed, rowCount, List.length_eq_zero_iff, and_assoc]

theorem placed_of_rest {x : Sce} (hp : x.pos = 0) (hv : x.speed = 0) : Placed x :=
  ⟨fun _ => ⟨hp, hv⟩, by simp [hp], by simp [hv]⟩

/-- The stop-reached test touches nothing but its flag (R61). -/
theorem testStop_eq (x : Sce) : x.testStop = { x with stopReached := x.testStop.stopReached } := by
  unfold Sce.testStop
  split
  · rfl
  · split <;> rfl

theorem testStop_pos (x : Sce) : x.testStop.pos = x.pos := by rw [testStop_eq]
theorem testStop_speed (x : Sce) : x.testStop.speed = x.speed := by rw [testStop_eq]
theorem testStop_marks (x : Sce) : x.testStop.marks = x.marks := by rw [testStop_eq]
theorem testStop_speedLimit (x : Sce) : x.testStop.speedLimit = x.speedLimit := by rw [testStop_eq]

/-- The jump, or the limit, ramp, motion and clamp: a step up to its two flag tests (R55 to R62). -/
def Sce.moved (x : Sce) (t : Int) : Sce × List Event × Bool :=
  match x.jumpTarget with
  | (some target, marks) => (x.jumpTo target marks, [], false)
  | (none, marks) => x.moveStep t marks

theorem step_eq (x : Sce) (t : Int) : x.step t =
    ((x.moved t).1.testStop.runoutTest.1, (x.moved t).2.1 ++ (x.moved t).1.testStop.runoutTest.2, (x.moved t).2.2) := rfl

theorem moved_jump {x : Sce} {t : Int} {target : Nat} {marks : List Mark} (h : x.jumpTarget = (some target, marks)) :
    x.moved t = (x.jumpTo target marks, [], false) := by simp [Sce.moved, h]

theorem moved_move {x : Sce} {t : Int} {marks : List Mark} (h : x.jumpTarget = (none, marks)) :
    x.moved t = x.moveStep t marks := by simp [Sce.moved, h]

theorem step_pos (x : Sce) (t : Int) : (x.step t).1.pos = (x.moved t).1.pos := testStop_pos _
theorem step_speed (x : Sce) (t : Int) : (x.step t).1.speed = (x.moved t).1.speed := testStop_speed _
theorem step_marks_moved (x : Sce) (t : Int) : (x.step t).1.marks = (x.moved t).1.marks := testStop_marks _

/-- A step takes the marks its jump leaves (R80). -/
theorem step_marks (x : Sce) (t : Int) : (x.step t).1.marks = x.jumpTarget.2 := by
  rw [step_marks_moved]
  rcases h : x.jumpTarget with ⟨_ | target, marks⟩
  · rw [moved_move h]; rfl
  · rw [moved_jump h]; rfl

theorem step_speedLimit (x : Sce) (t : Int) : (x.step t).1.speedLimit = x.speedLimit := by
  rw [step_eq]
  refine (testStop_speedLimit _).trans ?_
  rcases h : x.jumpTarget with ⟨_ | target, marks⟩
  · rw [moved_move h]; rfl
  · rw [moved_jump h]; rfl

theorem moveStep_speed_natAbs (x : Sce) (t : Int) (marks : List Mark) : (x.moveStep t marks).1.speed.natAbs ≤ x.speedLimit := by
  show (moveBy x.active.rows x.pos (x.rampedSpeed t)).speed.natAbs ≤ x.speedLimit
  rcases moveBy_speed x.active.rows x.pos (x.rampedSpeed t) with h | h <;> rw [h]
  · exact Nat.zero_le _
  · exact rampedSpeed_natAbs x t

/-- A step leaves the position on the map and the speed within its limit (R55, R56, R59, R62). -/
theorem placed_step {x : Sce} (t : Int) (hr : x.active.rows ≠ []) : Placed (x.step t).1 := by
  unfold Placed
  rw [step_active, step_pos, step_speed, step_speedLimit]
  refine ⟨fun h => absurd h hr, ?_⟩
  rcases h : x.jumpTarget with ⟨_ | target, marks⟩
  · rw [moved_move h]
    exact ⟨moveBy_pos_le _ _, moveStep_speed_natAbs x t marks⟩
  · rw [moved_jump h]
    exact ⟨Nat.min_le_right _ _, Nat.zero_le _⟩

theorem install_speedLimit (x : Sce) (b : Bank) : (x.install b).1.speedLimit = x.speedLimit := by
  unfold Sce.install
  dsimp only
  rw [testStop_eq]

theorem afterInstall_speedLimit (s : State) : (afterInstall s).sce.speedLimit = s.sru.set.speedLimit := by
  unfold afterInstall
  split
  · rw [installMap_sce, install_speedLimit]; rfl
  · rfl

theorem positionOk_frameStep {s : State} (h : s.sru.set.speedLimit ≤ 32767) : PositionOk (frameStep s) := by
  rw [positionOk_iff, (writes_frameStep s).set (by simp), frameStep_eq]
  split
  · refine ⟨placed_of_rest rfl rfl, ?_, h⟩
    show (afterInstall s).sce.speedLimit ≤ 32767
    rwa [afterInstall_speedLimit]
  · next hr =>
    have hr' : (afterInstall s).sce.active.rows ≠ [] := by simpa [rowCount] using hr
    simp only [raiseAll_sce, State.withHelm_sce, State.withSce_sce, step_speedLimit, afterInstall_speedLimit]
    exact ⟨placed_step _ hr', h, h⟩

theorem PositionOk.congr {p : Prop} {s u : State} (h : PositionOk s) (hx : Placed s.sce → Placed u.sce)
    (hl : u.sce.speedLimit = s.sce.speedLimit) (hr : Retaken p s.sru.set u.sru.set) : PositionOk u := by
  rw [positionOk_iff] at h ⊢
  obtain ⟨hp, hs, hset⟩ := h
  exact ⟨hx hp, hl ▸ hs, hr.speedLimit hset⟩

theorem PositionOk.writes {p : Prop} {bs : List Block} {s u : State} (h : PositionOk s) (hw : Writes bs s u) (hs : Block.sce ∉ bs)
    (hr : Retaken p s.sru.set u.sru.set) : PositionOk u :=
  h.congr (by rw [hw.sce hs]; exact id) (by rw [hw.sce hs]) hr

theorem setMark_rest (x : Sce) (l : Link) (f : Half) : (x.setMark l f).1 = { x with marks := (x.setMark l f).1.marks } := by
  unfold Sce.setMark
  dsimp only
  split <;> rfl

theorem jumpAction_rest (s : State) (c : Claimant) (j : Jump) :
    (jumpAction s c j).sce = { s.sce with jump := (jumpAction s c j).sce.jump } := by
  unfold jumpAction
  split <;> rfl

theorem blockShares_sce (s : State) : (blockShares s).sce = s.sce.runReset := rfl

theorem startRunReset_sce (s : State) (late : Bool) : (startRunReset s late).sce = s.sce.runReset := by
  rw [(writes_startRunReset_shares s late).sce (by simp), blockShares_sce]

theorem positionOk_exec {c : Instr} {s t : State} (h : PositionOk s) (he : exec c s = .next t) : PositionOk t := by
  refine kept_by_exec_reset h (fun k => ?_) (fun v u hv hw => hv.writes hw (by simp) (.of_eq (p := False) (hw.set (by simp))))
    (fun b u hu hc => ?_) (fun u hu => hu.writes (writes_takePresented u) (by simp) (.of_eq (p := False) ((writes_takePresented u).set (by simp))))
    (fun u hu => hu.writes (writes_arbitrate u) (by simp) (.of_eq (p := False) (arbitrate_sru_set u))) he
  · rw [positionOk_iff]
    exact ⟨placed_of_rest rfl rfl, Nat.le_of_ble_eq_true rfl, Nat.le_of_ble_eq_true rfl⟩
  · have hw := acts_writes hu
    have hr := acts_retaken hu hc
    cases hu with
    | powerOn | masterReset | initialisation | resetPinRise => exact absurd trivial hc
    | frameStep =>
      refine PositionOk.writes (positionOk_frameStep (s := s.withFtu _) ?_) (writes_takeLateShare _) (by simp)
        (.of_eq (p := False) (takeLateShare_set _))
      exact ((positionOk_iff s).mp h).2.2
    | mark =>
      refine h.congr (fun hp => ?_) ?_ hr
      · rw [raiseAll_sce, State.withSce_sce, setMark_rest]
        exact hp
      · rw [raiseAll_sce, State.withSce_sce, setMark_rest]
    | returnMark | nextStory | prevStory =>
      refine h.congr (fun hp => ?_) ?_ hr
      · rw [jumpAction_rest]
        exact hp
      · rw [jumpAction_rest]
        rfl
    | markIgnored => exact h.writes (writes_afterFired s _ _) (by simp) hr
    | runReset =>
      refine h.congr (fun _ => ?_) ?_ hr
      · rw [startRunReset_sce]
        exact placed_of_rest rfl rfl
      · rw [startRunReset_sce]
        rfl
    | runResetIgnored => exact h.writes (writes_afterHandover s _) (by simp) hr
    | _ => exact h.writes hw (by simp) hr

/-! ## The marks (R73) -/

/-- The engine's part of the mark invariant. -/
def MarksIn (rows : List Row) (marks : List Mark) : Prop :=
  marks.length ≤ markCapacity ∧ (marks.map (·.slot)).Nodup ∧ ∀ m ∈ marks, m.slot ∈ rows.map (·.slot) ∧ m.fraction < rowUnits

theorem marksOk_iff (s : State) : MarksOk s ↔ MarksIn s.sce.active.rows s.sce.marks := Iff.rfl

theorem MarksIn.sublist {rows : List Row} {l k : List Mark} (h : MarksIn rows l) (hk : k.Sublist l) : MarksIn rows k := by
  obtain ⟨hl, hn, hm⟩ := h
  exact ⟨hk.length_le.trans hl, (hk.map _).nodup hn, fun m hmk => hm m (hk.subset hmk)⟩

theorem marksIn_nil (rows : List Row) : MarksIn rows [] := by simp [MarksIn]

theorem jumpTarget_marks_sublist (x : Sce) : x.jumpTarget.2.Sublist x.marks := by
  unfold Sce.jumpTarget
  split
  · exact List.Sublist.refl _
  · exact List.Sublist.refl _
  · exact List.Sublist.refl _
  · split
    · exact List.Sublist.refl _
    · split <;> exact List.dropLast_sublist _

theorem mem_slots_of_survives {rows : List Row} {m : Mark} (h : m.survives rows = true) : m.slot ∈ rows.map (·.slot) := by
  unfold Mark.survives indexOfSlot at h
  rw [List.findIdx?_isSome, List.any_eq_true] at h
  obtain ⟨r, hr, he⟩ := h
  exact List.mem_map.mpr ⟨r, hr, by simpa using he⟩

/-- An installation keeps the marks whose slot stands in the new map (R84). -/
theorem MarksIn.install {rows : List Row} {marks : List Mark} (h : MarksIn rows marks) (new : List Row) :
    MarksIn new (marks.filter (Mark.survives new)) := by
  obtain ⟨hl, hn, hm⟩ := h.sublist (List.filter_sublist (p := Mark.survives new))
  refine ⟨hl, hn, fun m hmem => ⟨mem_slots_of_survives (List.mem_filter.mp hmem).2, (hm m hmem).2⟩⟩

theorem install_marks (x : Sce) (b : Bank) : (x.install b).1.marks = x.marks.filter (Mark.survives b.rows) := testStop_marks _

theorem marksOk_frameStep {s : State} (h : MarksOk s) : MarksOk (frameStep s) := by
  have hi : MarksOk (afterInstall s) := by
    unfold afterInstall
    split
    · rw [marksOk_iff, installMap_sce, install_marks, install_active]
      exact MarksIn.install h _
    · exact h
  rw [frameStep_eq]
  split
  · exact hi
  · rw [marksOk_iff, raiseAll_sce, State.withHelm_sce, State.withSce_sce, step_marks, step_active]
    exact MarksIn.sublist hi (jumpTarget_marks_sublist _)

theorem slotAt_mem {rows : List Row} {i : Nat} (h : i < rows.length) : slotAt rows i ∈ rows.map (·.slot) := by
  rw [slotAt, List.getElem?_eq_getElem h]
  exact List.mem_map_of_mem (List.getElem_mem h)

/-- A mark set stands at the read row, in place of one on its slot, or of the oldest of 8 (R75). -/
theorem marksIn_setMark {x : Sce} (h : MarksIn x.active.rows x.marks) (hr : x.active.rows ≠ []) (hp : x.pos ≤ pMax x.active.rows)
    (l : Link) (f : Half) : MarksIn x.active.rows (x.setMark l f).1.marks := by
  have new (k : List Mark) (hk : MarksIn x.active.rows k) (hlt : k.length < markCapacity)
      (hne : ∀ m ∈ k, m.slot ≠ slotAt x.active.rows x.row) :
      MarksIn x.active.rows (k ++ [⟨slotAt x.active.rows x.row, x.pos % rowUnits, l, f⟩]) := by
    obtain ⟨-, hn, hm⟩ := hk
    refine ⟨by simpa using hlt, ?_, fun m hmem => ?_⟩
    · simpa [List.nodup_append, hn] using hne
    · rcases List.mem_append.mp hmem with hmem | hmem
      · exact hm m hmem
      · rw [List.mem_singleton.mp hmem]
        exact ⟨slotAt_mem (row_lt_of_le_pMax hr hp), Nat.mod_lt _ (by decide)⟩
  have hk := h.sublist (List.filter_sublist (p := fun m => m.slot != slotAt x.active.rows x.row))
  have hne : ∀ m ∈ x.marks.filter (fun m => m.slot != slotAt x.active.rows x.row), m.slot ≠ slotAt x.active.rows x.row :=
    fun m hm => by simpa using (List.mem_filter.mp hm).2
  unfold Sce.setMark
  dsimp only
  split
  · next hlt => exact new _ hk hlt hne
  · refine new _ (hk.sublist (List.drop_sublist _ _)) ?_ fun m hm => hne m (List.mem_of_mem_drop hm)
    have := hk.1
    rw [List.length_drop]
    unfold markCapacity at *
    omega

theorem MarksOk.congr {s u : State} (h : MarksOk s) (hm : u.sce.marks = s.sce.marks) (ha : u.sce.active = s.sce.active) :
    MarksOk u := by
  rw [marksOk_iff] at h ⊢
  rwa [hm, ha]

theorem MarksOk.writes {bs : List Block} {s u : State} (h : MarksOk s) (hw : Writes bs s u) (hs : Block.sce ∉ bs) : MarksOk u :=
  h.congr (by rw [hw.sce hs]) (by rw [hw.sce hs])

theorem marksOk_exec {c : Instr} {s t : State} (hp : PositionOk s) (h : MarksOk s) (he : exec c s = .next t) : MarksOk t := by
  refine kept_by_exec_reset h (fun k => ?_) (fun v u hv hw => hv.writes hw (by simp)) (fun b u hu hc => ?_)
    (fun u hu => hu.writes (writes_takePresented u) (by simp)) (fun u hu => hu.writes (writes_arbitrate u) (by simp)) he
  · exact marksIn_nil _
  · have hw := acts_writes hu
    cases hu with
    | powerOn | masterReset | initialisation | resetPinRise => exact absurd trivial hc
    | frameStep => exact (marksOk_frameStep (h.writes (writes_withFtu s _) (by simp))).writes (writes_takeLateShare _) (by simp)
    | mark hf ha hl hr =>
      rw [marksOk_iff, raiseAll_sce, State.withSce_sce, setMark_active]
      exact marksIn_setMark h hr hp.2.1 _ _
    | returnMark | nextStory | prevStory => exact h.congr (by rw [jumpAction_rest]; rfl) (by rw [jumpAction_rest]; rfl)
    | markIgnored => exact h.writes (writes_afterFired s _ _) (by simp)
    | runReset =>
      rw [marksOk_iff, startRunReset_sce]
      exact marksIn_nil _
    | runResetIgnored => exact h.writes (writes_afterHandover s _) (by simp)
    | _ => exact h.writes hw (by simp)

/-- Settles O20, by the engine's part of each invariant kept by each way a command can go. -/
theorem positionAndMarksInvariant : Obligations.PositionAndMarksInvariant :=
  ⟨fun _ _ _ h he => positionOk_exec h he, fun _ _ _ hp h he => marksOk_exec hp h he⟩

end Sys2Proof.Machine

/-! What a command may make of the settings and report unit, and the invariants of it: the working settings, the event ring, the
fresh set and the run reset (R144, R146, R179 to R204). -/

namespace Sys2Proof.Machine

open Sys2Proof.Config

/-- What a command may make of the SRU before the arbiter acts, short of a master reset; where `p` allows it, its write is performed. -/
inductive Reported (p : Prop) (x : Sru) : Sru → Prop
  | refl : Reported p x x
  | accept {y} (h : Reported p x y) (e : Event) (frame : Half) (tick : Word) : Reported p x (y.accept e frame tick)
  | set {y} (h : Reported p x y) (c : Settings) : Reported p x { y with set := c }
  | status {y} (h : Reported p x y) (words : List Word) : Reported p x { y with status := some ⟨words, 0⟩ }
  | noRequest {y} (h : Reported p x y) (hr : y.request = some .status) : Reported p x { y with request := none }
  | attention {y} (h : Reported p x y) (w : Word) : Reported p x (y.attentionRead w)
  | consume {y} (h : Reported p x y) (w : Word) : Reported p x (y.takeConsume w)
  | performed {y} (h : Reported p x y) (hp : p) {k : SruAccess} (hk : y.request = some k) : Reported p x (y.performed k)
  | resetLeft {y} (h : Reported p x y) (n : Nat) : Reported p x { y with resetLeft := n }
  | start {y} (h : Reported p x y) (hi : y.runState = .idle) (n : Nat) :
      Reported p x { y with runState := .running, resetLeft := n, zeroDue := false }
  | late {y} (h : Reported p x y) (hr : y.runState = .running) (hz : y.zeroDue = false) : Reported p x { y with helmShare := true }
  | shareTaken {y} (h : Reported p x y) : Reported p x { y with helmShare := false }
  | finish {y} (h : Reported p x y) (hr : y.runState = .running) (hs : y.helmShare = false) : Reported p x { y with zeroDue := true }

namespace Reported

theorem trans {p : Prop} {x y z : Sru} (h : Reported p x y) (h' : Reported p y z) : Reported p x z := by
  induction h' with
  | refl => exact h
  | accept _ e f t ih => exact ih.accept e f t
  | set _ c ih => exact ih.set c
  | status _ w ih => exact ih.status w
  | noRequest _ hr ih => exact ih.noRequest hr
  | attention _ w ih => exact ih.attention w
  | consume _ w ih => exact ih.consume w
  | performed _ hp hk ih => exact ih.performed hp hk
  | resetLeft _ n ih => exact ih.resetLeft n
  | start _ hi n ih => exact ih.start hi n
  | late _ hr hz ih => exact ih.late hr hz
  | shareTaken _ ih => exact ih.shareTaken
  | finish _ hr hs ih => exact ih.finish hr hs

theorem of_eq {p : Prop} {x y : Sru} (h : y = x) : Reported p x y := h ▸ .refl

theorem of_raised {p : Prop} {x y : Sru} (h : Raised x y) : Reported p x y := by
  induction h with
  | refl => exact .refl
  | accept _ e f t ih => exact ih.accept e f t

end Reported

theorem Writes.reported {p : Prop} {bs : List Block} {s u : State} (h : Writes bs s u) (hb : Block.sru ∉ bs) : Reported p s.sru u.sru :=
  .of_raised (h.sru hb)

/-- An operation that does not write the SRU goes on from what came before it. -/
theorem Reported.writes {p : Prop} {x : Sru} {bs : List Block} {s u : State} (h : Reported p x s.sru) (hw : Writes bs s u)
    (hb : Block.sru ∉ bs) : Reported p x u.sru := h.trans (hw.reported hb)

/-! ## The settings commands at the SRU -/

theorem reported_withSettings {p : Prop} {x : Sru} {s : State} (h : Reported p x s.sru) (c : Settings) : Reported p x (withSettings s c).sru :=
  h.set c

/-- A setting taken: its clamp reported, the working settings replaced, and what acts at once. -/
theorem Reported.taken {p : Prop} {bs : List Block} {s u v : State} {x : Sru} {c : Settings} (h : Reported p x s.sru) (hc : Writes [] s u)
    (hv : Writes bs (withSettings u c) v) (hb : Block.sru ∉ bs) : Reported p x v.sru :=
  ((h.trans (hc.reported (by simp))).set c).trans (hv.reported hb)

theorem reported_takeRouteNumber {p : Prop} {x : Sru} {s : State} (h : Reported p x s.sru) (o : Nat) (k : Head) (w : Word) (n : Nat)
    (put : Route → Route) : Reported p x (takeRouteNumber s o k w n put).sru :=
  h.taken (writes_reportClamp s o n w) (.refl [] _) (by simp)

theorem reported_takeRoute {p : Prop} {x : Sru} {s : State} (h : Reported p x s.sru) (o : Nat) (k : Head) (f : RouteField) (w : Word) :
    Reported p x (takeRoute s o k f w).sru := by
  unfold takeRoute
  cases f with
  | source =>
    dsimp only
    split
    · exact h.taken (writes_raise s _) (.refl [] _) (by simp)
    · exact reported_takeRouteNumber h ..
  | rows =>
    dsimp only
    unfold takeRows
    dsimp only
    split
    · exact (reported_takeRouteNumber h o k w _ _).taken (writes_raise _ _) (.refl [] _) (by simp)
    · exact reported_takeRouteNumber h ..
  | inject => exact reported_withSettings (reported_takeRouteNumber h ..) _
  | _ => exact reported_takeRouteNumber h ..

/-! ## The run reset at the SRU -/

theorem reported_finishRunReset {p : Prop} {x : Sru} {s : State} (h : Reported p x s.sru) (hd : sharesDone s = true) :
    Reported p x (finishRunReset s).sru := by
  simp only [sharesDone, Bool.and_eq_true, beq_iff_eq, Bool.not_eq_true'] at hd
  exact (h.accept _ _ _).finish hd.1.1.1 hd.1.2

theorem reported_afterShares {p : Prop} {x : Sru} {s : State} (h : Reported p x s.sru) (hi : s.sru.runState = .idle) (late : Bool) :
    Reported p x (afterShares s late).sru := by
  have hb : Reported p x (blockShares s).sru := h.start hi _
  unfold afterShares
  split
  · exact hb.late rfl rfl
  · exact hb.trans ((writes_helmRunReset _).reported (by simp))

theorem reported_startRunReset {p : Prop} {x : Sru} {s : State} (h : Reported p x s.sru) (hi : s.sru.runState = .idle) (late : Bool) :
    Reported p x (startRunReset s late).sru := by
  rw [startRunReset_eq]
  split
  · next hd => exact reported_finishRunReset (reported_afterShares h hi late) hd
  · exact reported_afterShares h hi late

theorem reported_takeLateShare {p : Prop} {x : Sru} {s : State} (h : Reported p x s.sru) : Reported p x (takeLateShare s).sru := by
  unfold takeLateShare
  split
  · exact (h.trans ((writes_helmRunReset s).reported (by simp))).shareTaken
  · exact h

theorem reported_takeSnapshot {p : Prop} {x : Sru} {s : State} (h : Reported p x s.sru) : Reported p x (takeSnapshot s).sru := by
  unfold takeSnapshot
  dsimp only
  split
  · next hr => exact (h.status (statusWordsOf s)).noRequest hr.1
  · exact h.status _

theorem reported_hltFrame {p : Prop} {x : Sru} {s : State} (h : Reported p x s.sru) (k : Head) : Reported p x (hltFrame s k).sru := by
  have hr : Reported p x (loadRoute (orphanOf (s.withHead k (s.hlt.get k).close) (.hlt k)) k).sru :=
    ((h.trans ((writes_withHead s k _).reported (by simp))).trans ((writes_orphanOf _ _).reported (by simp))).trans
      ((writes_loadRoute _ k).reported (by simp))
  have hi : Reported p x (loadInject (loadRoute (orphanOf (s.withHead k (s.hlt.get k).close) (.hlt k)) k) k).sru := by
    unfold loadInject
    split
    · exact hr.set _
    · exact hr
  unfold hltFrame
  dsimp only
  split
  · exact hi
  · exact (hi.trans ((writes_judgeLag _ k).reported (by simp))).trans ((writes_sendFrame _ k).reported (by simp))

/-- Short of a master reset, a command makes of the SRU nothing else before the arbiter acts. -/
theorem acts_reported {c : Instr} {b : Bool} {s u : State} (h : Acts s c b u) (hc : ¬mayReset c) :
    Reported (c = .sruWriteDone) s.sru u.sru := by
  have hw := acts_writes h
  have hf (f : Ftu) : Reported (c = .sruWriteDone) s.sru (s.withFtu f).sru := .refl
  have hp (rest : List Handover) : Reported (c = .sruWriteDone) s.sru (afterHandover s rest).sru := .refl
  cases h with
  | powerOn | masterReset | initialisation | resetPinRise => exact absurd trivial hc
  | frameStep => exact reported_takeLateShare ((hf _).writes (writes_frameStep _) (by simp))
  | hltFrame k => exact reported_hltFrame (hf _) k
  | statusSnapshot => exact reported_takeSnapshot (hf _)
  | attentionRead => exact Reported.refl.attention _
  | consumeWrite => exact Reported.refl.consume _
  | @runReset late o w rest hh hcw hi => exact reported_startRunReset (hp rest) hi.2 late
  | runResetIgnored => exact .refl
  | runResetDone hd => exact reported_finishRunReset .refl hd
  | sruWriteDone _ _ hk => exact Reported.refl.performed rfl hk
  | sruWriteLeft => exact .refl
  | @releaseWriteDone a e s2 hb ho he h2 =>
    have hn (v : State) (hv : v.sru = s.sru) : Reported (Instr.releaseWriteDone = .sruWriteDone) s.sru (nearFullTest v).sru :=
      hv ▸ (writes_nearFullTest v).reported (by simp)
    have h2' : Reported (Instr.releaseWriteDone = .sruWriteDone) s.sru s2.sru := h2 ▸ hn _ rfl
    exact h2'.resetLeft _
  | releaseWriteLeft => exact .refl
  | settingWrite => exact (hp _).taken (writes_reportPlain ..) (.refl [] _) (by simp)
  | guardBandWrite => exact (hp _).taken (writes_reportClamp ..) (writes_recomputeOnAir _) (by simp)
  | nearFullThresholdWrite => exact (hp _).taken (writes_reportClamp ..) (writes_nearFullTest _) (by simp)
  | helmModeWrite =>
    unfold takeHelmMode
    dsimp only
    split
    · exact (hp _).taken (writes_reportClamp ..) (writes_suspendedToPending _) (by simp)
    · exact (hp _).taken (writes_reportClamp ..) (writes_preemptionTest ..) (by simp)
    · exact (hp _).taken (writes_reportClamp ..) (.refl [] _) (by simp)
  | levelWrite => exact (hp _).taken (writes_reportClamp ..) (writes_preemptionTest ..) (by simp)
  | autoEnableWrite =>
    unfold takeAutoEnable
    dsimp only
    split
    · exact (hp _).taken (writes_reportClamp ..) (writes_judgeClaim ..) (by simp)
    · exact (hp _).taken (writes_reportClamp ..) (writes_letGo ..) (by simp)
  | routeWrite => exact reported_takeRoute (hp _) _ _ _ _
  | attentionMaskWrite | interruptEnableWrite => exact (hp _).taken (writes_reportClamp ..) (.refl [] _) (by simp)
  | _ => exact hw.reported (by simp)

end Sys2Proof.Machine

/-! The invariants of the settings and report unit: the settings' ranges, the ring, the fresh set and the run reset (R144, R146,
R179 to R181, R189, R190, R199, R202). -/

namespace Sys2Proof.Machine

open Sys2Proof.Config

/-! ## The working settings -/

/-- The settings part of `SettingsOk`. -/
def InRange (x : Settings) : Prop :=
  (x.settle ≤ 255 ∧ x.guardBand ≤ 15 ∧ x.holdLimit ≤ 600 ∧ 1 ≤ x.nearFull ∧ x.nearFull ≤ 64) ∧
  (x.speedLimit ≤ 32767 ∧ 1 ≤ x.accel ∧ x.accel ≤ 4095 ∧ 1 ≤ x.stopRate ∧ x.stopRate ≤ 8191 ∧ x.runout ≤ 255) ∧
  (10000 ≤ x.nominal ∧ x.nominal ≤ 50000 ∧ x.autoSpeed.natAbs ≤ 32767) ∧
  (∀ c ∈ [Claimant.operator, Claimant.presenter, Claimant.auto], 1 ≤ levelOf x c ∧ levelOf x c ≤ 3) ∧
  (∀ l ∈ [x.curveA, x.curveB], l.length = 17 ∧ ∀ n ∈ l, n ≤ 32767) ∧
  (∀ h ∈ [Head.h0, Head.h1, Head.h2, Head.h3], routeOk (x.routes.get h)) ∧ (testOwners x).length ≤ 1

theorem settingsOk_iff (s : State) : SettingsOk s ↔ InRange s.sru.set := Iff.rfl

theorem mem_testOwners {x : Settings} {k : Head} : k ∈ testOwners x ↔ (x.routes.get k).source = .test := by
  cases k <;> simp [testOwners]

/-- At most one head owns TEST: any two that do are one. -/
theorem testOwners_le_one_iff (x : Settings) : (testOwners x).length ≤ 1 ↔
    ∀ i j, (x.routes.get i).source = .test → (x.routes.get j).source = .test → i = j := by
  have hn : (testOwners x).Nodup := List.Nodup.filter _ (by decide)
  simp only [← mem_testOwners]
  match testOwners x, hn with
  | [], _ => simp
  | [k], _ => simp
  | i :: j :: rest, hn =>
    have hij : i ≠ j := fun h => by simp [h] at hn
    simp only [List.length_cons, Nat.reduceLeDiff, false_iff]
    exact fun h => hij (h i j (by simp) (by simp))

theorem not_test_of_not_elsewhere {x : Settings} {k j : Head} (h : testOwnedElsewhere x k = false)
    (hj : (x.routes.get j).source = .test) : j = k := by
  have hk := List.any_eq_false.mp h j (by cases j <;> simp)
  simpa [hj] using hk

/-- One route replaced: at most one head owns TEST, when the new source is not TEST or was already, or no other head owns it. -/
theorem testOwners_set {x : Settings} {k : Head} {r : Route} (h : (testOwners x).length ≤ 1)
    (ht : r.source = .test → r.source = (x.routes.get k).source ∨ testOwnedElsewhere x k = false) :
    (testOwners { x with routes := x.routes.set k r }).length ≤ 1 := by
  rw [testOwners_le_one_iff] at h ⊢
  have owner {j : Head} (hr : r.source = .test) (hj : (x.routes.get j).source = .test) : j = k := by
    rcases ht hr with hs | hs
    · exact h j k hj (hs ▸ hr)
    · exact not_test_of_not_elsewhere hs hj
  intro i j hi hj
  by_cases hik : i = k <;> by_cases hjk : j = k
  · rw [hik, hjk]
  · subst hik
    simp only [Quad.get_set, Quad.get_set_ne _ _ hjk] at hi hj
    exact (owner hi hj).symm
  · subst hjk
    simp only [Quad.get_set, Quad.get_set_ne _ _ hik] at hi hj
    exact owner hj hi
  · simp only [Quad.get_set_ne _ _ hik, Quad.get_set_ne _ _ hjk] at hi hj
    exact h i j hi hj

theorem plainNumber_le (c : ControlWord) (w : Word) (h : (plainRange c).1 ≤ (plainRange c).2) :
    plainNumber c w ≤ (plainRange c).2 := clamp_le h _

theorem le_plainNumber (c : ControlWord) (w : Word) : (plainRange c).1 ≤ plainNumber c w := le_clamp _ _ _

theorem curve_set {l : List Nat} {k n : Nat} (h : l.length = 17 ∧ ∀ m ∈ l, m ≤ 32767) (hn : n ≤ 32767) :
    (l.set k n).length = 17 ∧ ∀ m ∈ l.set k n, m ≤ 32767 := by
  refine ⟨by simp [h.1], fun m hm => ?_⟩
  rcases List.mem_or_eq_of_mem_set hm with hm | rfl
  · exact h.2 m hm
  · exact hn

theorem inRange_takePlain {x : Settings} (h : InRange x) (c : ControlWord) (w : Word) : InRange (x.takePlain c w) := by
  obtain ⟨⟨hset, hguard, hhold, hnear⟩, ⟨hlim, ha, ha', hst, hst', hrun⟩, ⟨hnom, hnom', hauto⟩, hlev, hcur, hrest⟩ := h
  have lo := le_plainNumber c w
  have hi := plainNumber_le c w
  have hA := hcur x.curveA (by simp)
  have hB := hcur x.curveB (by simp)
  unfold Settings.takePlain
  dsimp only
  split <;> simp only [plainRange] at lo hi
  case h_1 => exact ⟨⟨hi (by omega), hguard, hhold, hnear⟩, ⟨hlim, ha, ha', hst, hst', hrun⟩, ⟨hnom, hnom', hauto⟩, hlev, hcur, hrest⟩
  case h_3 => exact ⟨⟨hset, hguard, hi (by omega), hnear⟩, ⟨hlim, ha, ha', hst, hst', hrun⟩, ⟨hnom, hnom', hauto⟩, hlev, hcur, hrest⟩
  case h_4 => exact ⟨⟨hset, hguard, hhold, hnear⟩, ⟨hi (by omega), ha, ha', hst, hst', hrun⟩, ⟨hnom, hnom', hauto⟩, hlev, hcur, hrest⟩
  case h_5 => exact ⟨⟨hset, hguard, hhold, hnear⟩, ⟨hlim, lo, hi (by omega), hst, hst', hrun⟩, ⟨hnom, hnom', hauto⟩, hlev, hcur, hrest⟩
  case h_6 => exact ⟨⟨hset, hguard, hhold, hnear⟩, ⟨hlim, ha, ha', lo, hi (by omega), hrun⟩, ⟨hnom, hnom', hauto⟩, hlev, hcur, hrest⟩
  case h_7 => exact ⟨⟨hset, hguard, hhold, hnear⟩, ⟨hlim, ha, ha', hst, hst', hi (by omega)⟩, ⟨hnom, hnom', hauto⟩, hlev, hcur, hrest⟩
  case h_8 => exact ⟨⟨hset, hguard, hhold, hnear⟩, ⟨hlim, ha, ha', hst, hst', hrun⟩, ⟨lo, hi (by omega), hauto⟩, hlev, hcur, hrest⟩
  case h_9 =>
    refine ⟨⟨hset, hguard, hhold, hnear⟩, ⟨hlim, ha, ha', hst, hst', hrun⟩, ⟨hnom, hnom', ?_⟩, hlev, hcur, hrest⟩
    simp only [autoSpeedOf, clampInt]
    omega
  case h_10 k =>
    refine ⟨⟨hset, hguard, hhold, hnear⟩, ⟨hlim, ha, ha', hst, hst', hrun⟩, ⟨hnom, hnom', hauto⟩, hlev, ?_, hrest⟩
    simp only [List.mem_cons, List.not_mem_nil, or_false, forall_eq_or_imp, forall_eq]
    exact ⟨curve_set hA (hi (by omega)), hB⟩
  case h_11 k =>
    refine ⟨⟨hset, hguard, hhold, hnear⟩, ⟨hlim, ha, ha', hst, hst', hrun⟩, ⟨hnom, hnom', hauto⟩, hlev, ?_, hrest⟩
    simp only [List.mem_cons, List.not_mem_nil, or_false, forall_eq_or_imp, forall_eq]
    exact ⟨hA, curve_set hB (hi (by omega))⟩
  all_goals exact ⟨⟨hset, hguard, hhold, hnear⟩, ⟨hlim, ha, ha', hst, hst', hrun⟩, ⟨hnom, hnom', hauto⟩, hlev, hcur, hrest⟩

theorem levelTaken_range {x : Settings} {c : Claimant} (h : 1 ≤ levelOf x c ∧ levelOf x c ≤ 3) (w : Word) :
    1 ≤ levelTaken x c w ∧ levelTaken x c w ≤ 3 := by
  unfold levelTaken
  split
  · exact h
  · next hw =>
    have : w.toNat ≠ 0 := fun h0 => hw (BitVec.eq_of_toNat_eq (by simpa using h0))
    omega

theorem levelOf_setLevel (x : Settings) (c : Claimant) (n : Nat) : levelOf (x.setLevel c n) c = n := by cases c <;> rfl

theorem levelOf_setLevel_ne (x : Settings) {c d : Claimant} (n : Nat) (h : d ≠ c) : levelOf (x.setLevel c n) d = levelOf x d := by
  cases c <;> cases d <;> simp_all [levelOf, Settings.setLevel]

theorem inRange_setLevel {x : Settings} (h : InRange x) (c : Claimant) (w : Word) :
    InRange (x.setLevel c (levelTaken x c w)) := by
  obtain ⟨h1, h2, h3, hlev, hrest⟩ := h
  have hlev' : ∀ d ∈ [Claimant.operator, Claimant.presenter, Claimant.auto],
      1 ≤ levelOf (x.setLevel c (levelTaken x c w)) d ∧ levelOf (x.setLevel c (levelTaken x c w)) d ≤ 3 := by
    intro d hd
    by_cases hdc : d = c
    · subst hdc
      rw [levelOf_setLevel]
      exact levelTaken_range (hlev d hd) w
    · rw [levelOf_setLevel_ne x _ hdc]
      exact hlev d hd
  cases c <;> exact ⟨h1, h2, h3, hlev', hrest⟩

/-- What takes settings keeps them in their ranges, with at most one head on TEST (R144, R146, R179 to R181). -/
theorem Retaken.inRange {p : Prop} {x y : Settings} (h : Retaken p x y) (hx : InRange x) : InRange y := by
  induction h with
  | refl => exact hx
  | plain _ c w ih => exact inRange_takePlain ih c w
  | level _ c w ih => exact inRange_setLevel ih c w
  | guardBand _ hn ih =>
    obtain ⟨⟨h1, -, h2⟩, hrest⟩ := ih
    exact ⟨⟨h1, hn, h2⟩, hrest⟩
  | nearFull _ hn ih =>
    obtain ⟨⟨h1, h2, h3, -⟩, hrest⟩ := ih
    exact ⟨⟨h1, h2, h3, hn⟩, hrest⟩
  | route _ k hr ht ih =>
    obtain ⟨h1, h2, h3, h4, h5, hroutes, htest⟩ := ih
    refine ⟨h1, h2, h3, h4, h5, fun j hj => ?_, testOwners_set htest ht⟩
    by_cases hjk : j = k
    · subst hjk
      simpa using hr (hroutes j hj)
    · simpa only [Quad.get_set_ne _ _ hjk] using hroutes j hj
  | helmMode | autoEnable | mask | intEnable | injectWritten => assumption

theorem inRange_reset : InRange resetSettings := by
  unfold InRange routeOk
  decide

theorem settingsOk_exec {c : Instr} {s t : State} (h : SettingsOk s) (he : exec c s = .next t) : SettingsOk t := by
  have congr {u v : State} (hu : SettingsOk u) (hv : v.sru.set = u.sru.set) : SettingsOk v := by
    rw [settingsOk_iff] at hu ⊢
    rwa [hv]
  exact kept_by_exec_reset h (fun k => inRange_reset) (fun v u hv hw => congr hv (hw.set (by simp)))
    (fun b u hu hc => (acts_retaken hu hc).inRange h) (fun u hu => congr hu ((writes_takePresented u).set (by simp)))
    (fun u hu => congr hu (arbitrate_sru_set u)) he

/-! ## The event ring (R202) -/

/-- The SRU's part of `RingOk`. -/
def RingIn (x : Sru) : Prop := (x.produce - x.consume).toNat ≤ ringRecords ∧ numbered x.produce x.records

theorem numbered_append {p : Byte} {l : List Record} (h : numbered p l) {r : Record} (hr : r.num = p) : numbered (p + 1) (l ++ [r]) := by
  induction l with
  | nil => simp [numbered, hr]
  | cons a rest ih =>
    obtain ⟨ha, hrest⟩ := h
    refine ⟨?_, ih hrest⟩
    show a.num = p + 1 - BitVec.ofNat 8 ((rest ++ [r]).length + 1)
    rw [ha, List.length_append, List.length_singleton]
    apply BitVec.eq_of_toNat_eq
    have h1 : (1 : Byte).toNat = 1 := rfl
    simp only [BitVec.toNat_sub, BitVec.toNat_add, BitVec.toNat_ofNat, h1]
    omega

theorem numbered_drop {p : Byte} {l : List Record} (h : numbered p l) : numbered p (l.drop 1) := by
  cases l with
  | nil => exact h
  | cons a rest => exact h.2

theorem ringIn_accept {x : Sru} (h : RingIn x) (e : Event) (f : Half) (t : Word) : RingIn (x.accept e f t) := by
  unfold RingIn Sru.accept
  dsimp only
  by_cases hr : x.hasRoom = true
  · rw [if_pos hr, if_pos hr]
    refine ⟨?_, numbered_append h.2 rfl⟩
    have hlt : (x.produce - x.consume).toNat < ringRecords := by simpa [Sru.hasRoom] using hr
    unfold ringRecords at *
    bv_omega
  · rw [if_neg hr, if_neg hr]
    exact h

theorem ringIn_takeConsume {x : Sru} (h : RingIn x) (w : Word) : RingIn (x.takeConsume w) := by
  refine ⟨?_, h.2⟩
  unfold Sru.takeConsume
  dsimp only
  split
  · assumption
  · simp

theorem ringIn_performed {x : Sru} (h : RingIn x) (k : SruAccess) : RingIn (x.performed k) := by
  unfold Sru.performed
  split
  · split
    · exact h
    · exact ⟨h.1, numbered_drop h.2⟩
  all_goals exact h

theorem Reported.ringIn {p : Prop} {x y : Sru} (h : Reported p x y) (hx : RingIn x) : RingIn y := by
  induction h with
  | refl => exact hx
  | accept _ e f t ih => exact ringIn_accept ih e f t
  | consume _ w ih => exact ringIn_takeConsume ih w
  | performed _ _ _ ih => exact ringIn_performed ih _
  | _ => assumption

/-! ## The fresh set (R199, R200) -/

/-- The SRU's part of `FreshOk`. -/
def FreshIn (x : Sru) : Prop := x.fresh &&& ~~~x.latch = 0

theorem freshIn_iff (x : Sru) : FreshIn x ↔ ∀ i : Nat, x.fresh.getLsbD i = true → x.latch.getLsbD i = true := by
  constructor
  · intro h i hi
    have hb := congrArg (BitVec.getLsbD · i) h
    have hlt : i < 12 := BitVec.lt_of_getLsbD hi
    simpa [hi, hlt] using hb
  · intro h
    apply BitVec.eq_of_getLsbD_eq
    intro i hi
    have := h i
    simpa [hi] using this

theorem freshIn_accept {x : Sru} (h : FreshIn x) (e : Event) (f : Half) (t : Word) : FreshIn (x.accept e f t) := by
  rw [freshIn_iff] at h ⊢
  intro i
  simp only [Sru.accept, BitVec.getLsbD_or, Bool.or_eq_true]
  exact Or.imp_left (h i)

theorem freshIn_attentionRead {x : Sru} (h : FreshIn x) (w : Word) : FreshIn (x.attentionRead w) := by
  rw [freshIn_iff] at h ⊢
  intro i hi
  have hl : x.latch.getLsbD i = true := h i hi
  have hlt : i < 12 := BitVec.lt_of_getLsbD hl
  have hf : x.fresh.getLsbD i = true := hi
  simp [Sru.attentionRead, clearedBits, hl, hf, hlt]

theorem performed_fresh (x : Sru) (k : SruAccess) : (x.performed k).fresh = x.fresh ∧ (x.performed k).latch = x.latch := by
  unfold Sru.performed
  split
  · split <;> exact ⟨rfl, rfl⟩
  all_goals exact ⟨rfl, rfl⟩

theorem Reported.freshIn {p : Prop} {x y : Sru} (h : Reported p x y) (hx : FreshIn x) : FreshIn y := by
  induction h with
  | refl => exact hx
  | accept _ e f t ih => exact freshIn_accept ih e f t
  | attention _ w ih => exact freshIn_attentionRead ih w
  | @performed y _ _ k hk ih =>
    unfold FreshIn at ih ⊢
    rwa [(performed_fresh y k).1, (performed_fresh y k).2]
  | _ => assumption

/-! ## The run reset (R71, R189, R190) -/

/-- The SRU's part of `RunOk`. -/
def RunIn (x : Sru) : Prop :=
  (x.runState = .idle → x.helmShare = false ∧ x.zeroDue = false) ∧ (x.zeroDue = true → x.helmShare = false) ∧
  (x.request = some .runResetZero → x.zeroDue = true)

theorem runIn_performed {x : Sru} (h : RunIn x) {k : SruAccess} (hk : x.request = some k) : RunIn (x.performed k) := by
  obtain ⟨hi, hz, hr⟩ := h
  unfold Sru.performed
  split
  · split <;> exact ⟨hi, hz, (nomatch ·)⟩
  · exact ⟨fun _ => ⟨hz (hr hk), rfl⟩, (nomatch ·), (nomatch ·)⟩
  all_goals exact ⟨hi, hz, (nomatch ·)⟩

theorem Reported.runIn {p : Prop} {x y : Sru} (h : Reported p x y) (hx : RunIn x) : RunIn y := by
  induction h with
  | refl => exact hx
  | noRequest _ _ ih => exact ⟨ih.1, ih.2.1, (nomatch ·)⟩
  | performed _ _ hk ih => exact runIn_performed ih hk
  | start _ hi n ih =>
    obtain ⟨hidle, hz, hr⟩ := ih
    exact ⟨(nomatch ·), (nomatch ·), fun h => absurd (hr h) (by simp [(hidle hi).2])⟩
  | late _ hr hz ih => exact ⟨fun h => by simp [hr] at h, fun h => by simp [hz] at h, ih.2.2⟩
  | shareTaken _ ih => exact ⟨fun h => ⟨rfl, (ih.1 h).2⟩, fun _ => rfl, ih.2.2⟩
  | finish _ hr hs ih => exact ⟨fun h => by simp [hr] at h, fun _ => hs, fun _ => rfl⟩
  | _ => assumption

/-! ## Every command -/

/-- An invariant of the SRU alone, by what a command and the arbiter may make of it. -/
theorem sru_kept {P : Sru → Prop} {c : Instr} {s t : State} (hreset : P resetSru) (hrep : ∀ p x y, Reported p x y → P x → P y)
    (hg : ∀ u : State, P u.sru → P (arbitrate u).sru) (h : P s.sru) (he : exec c s = .next t) : P t.sru :=
  kept_by_exec_reset (P := fun u => P u.sru) h (fun _ => hreset) (fun _ _ hv hw => hrep False _ _ (hw.reported (by simp)) hv)
    (fun _ _ hu hc => hrep _ _ _ (acts_reported hu hc) h)
    (fun u hu => hrep False _ _ ((writes_takePresented u).reported (by simp)) hu) hg he

theorem ringOk_exec {c : Instr} {s t : State} (h : RingOk s) (he : exec c s = .next t) : RingOk t := by
  refine sru_kept (P := RingIn) ⟨by decide, trivial⟩ (fun _ _ _ hr => hr.ringIn) (fun u hu => ?_) h he
  rw [(arbitrate_sruIs u).1]
  exact hu

theorem freshOk_exec {c : Instr} {s t : State} (h : FreshOk s) (he : exec c s = .next t) : FreshOk t := by
  refine sru_kept (P := FreshIn) (by unfold FreshIn; decide) (fun _ _ _ hr => hr.freshIn) (fun u hu => ?_) h he
  unfold FreshIn at hu ⊢
  rw [arbitrate_sru_latch]
  rcases (arbitrate_sruIs u).2 with ⟨hf, -⟩ | ⟨hf, -⟩ <;> rw [hf]
  · exact hu
  · simp

theorem runOk_exec {c : Instr} {s t : State} (h : RunOk s) (he : exec c s = .next t) : RunOk t := by
  refine sru_kept (P := RunIn) ⟨by simp [resetSru], by simp [resetSru], by simp [resetSru]⟩ (fun _ _ _ hr => hr.runIn)
    (fun u hu => ?_) h he
  obtain ⟨hi, hz, hr⟩ := hu
  simp only [RunIn, arbitrate_sru_runState, arbitrate_sru_helmShare, arbitrate_sru_zeroDue]
  refine ⟨hi, hz, fun hq => ?_⟩
  rcases arbitrate_request u with h' | h' <;> rw [h'] at hq
  · exact hr hq
  · exact sruNext_runResetZero hq

/-- Settles O59, by what a command may make of the working settings and of the SRU. -/
theorem settingsAndRingInvariant : Obligations.SettingsAndRingInvariant :=
  ⟨fun _ _ _ h he => settingsOk_exec h he, fun _ _ _ h he => ringOk_exec h he, fun _ _ _ h he => freshOk_exec h he,
    fun _ _ _ h he => runOk_exec h he⟩

end Sys2Proof.Machine

/-! The claimants' states through every operation of the helm (R105, R109 to R117). -/

namespace Sys2Proof.Machine

open Sys2Proof.Config

/-- The claimants that hold the helm or wait for it. -/
def claimants (x : Helm) : List Claimant := x.holder.toList ++ x.stack ++ x.waiting

/-- The claimants' states, without AUTO's enable word (R105). -/
def ClaimantsOk (x : Helm) : Prop := (claimants x).Nodup ∧ (x.holder = none → x.stack = [] ∧ x.waiting = [])

theorem helmOk_iff (s : State) :
    HelmOk s ↔ ClaimantsOk s.helm ∧ (s.sru.set.autoEnable = false → .auto ∉ claimants s.helm) := by
  simp only [HelmOk, ClaimantsOk, claimants, and_assoc]

/-- The HELM group stands in the attention latch (R198). -/
def helmShown (s : State) : Prop := s.sru.latch.getLsbD 3 = true

theorem Raised.latch {x y : Sru} (h : Raised x y) {i : Nat} (hi : x.latch.getLsbD i = true) : y.latch.getLsbD i = true := by
  induction h with
  | refl => exact hi
  | accept _ e f t ih => simp [Sru.accept, ih]

/-- Staged settings put into use, at most: the holder and the flags stay, and only waiting claimants leave (R121). -/
structure Thinned (s u : State) : Prop where
  holder : u.helm.holder = s.helm.holder
  stack : u.helm.stack.Sublist s.helm.stack
  waiting : u.helm.waiting.Sublist s.helm.waiting
  paused : u.helm.paused = s.helm.paused
  coast : u.helm.coast = s.helm.coast
  shown : helmShown s → helmShown u

namespace Thinned

theorem refl (s : State) : Thinned s s := ⟨rfl, List.Sublist.refl _, List.Sublist.refl _, rfl, rfl, id⟩

theorem trans {s u v : State} (h : Thinned s u) (h' : Thinned u v) : Thinned s v :=
  ⟨h'.holder.trans h.holder, h'.stack.trans h.stack, h'.waiting.trans h.waiting, h'.paused.trans h.paused,
    h'.coast.trans h.coast, h'.shown ∘ h.shown⟩

theorem foldl {α : Type} (f : State → α → State) (hf : ∀ s x, Thinned s (f s x)) (xs : List α) (s : State) :
    Thinned s (xs.foldl f s) := by
  induction xs generalizing s with
  | nil => exact refl s
  | cons x rest ih => exact (hf s x).trans (ih _)

end Thinned

/-- An update that leaves HELM alone. -/
theorem Writes.thinned {bs : List Block} {s u : State} (h : Writes bs s u) (hh : Block.helm ∉ bs) (hs : Block.sru ∉ bs) :
    Thinned s u := by
  have e := h.helm hh
  exact ⟨by rw [e], by rw [e], by rw [e], by rw [e], by rw [e], (h.sru hs).latch⟩

/-- HELM replaced by one in which holder, collections and flags are the same. -/
theorem thinned_withHelm {s : State} {x : Helm} (h1 : x.holder = s.helm.holder) (h2 : x.stack.Sublist s.helm.stack)
    (h3 : x.waiting.Sublist s.helm.waiting) (h4 : x.paused = s.helm.paused) (h5 : x.coast = s.helm.coast) : Thinned s (s.withHelm x) :=
  ⟨h1, h2, h3, h4, h5, id⟩

theorem thinned_leave (s : State) (c : Claimant) : Thinned s (s.withHelm (s.helm.leave c)) :=
  thinned_withHelm rfl List.filter_sublist List.filter_sublist rfl rfl

theorem thinned_same {s : State} {x : Helm} (h1 : x.holder = s.helm.holder) (h2 : x.stack = s.helm.stack)
    (h3 : x.waiting = s.helm.waiting) (h4 : x.paused = s.helm.paused) (h5 : x.coast = s.helm.coast) : Thinned s (s.withHelm x) :=
  thinned_withHelm h1 (h2 ▸ List.Sublist.refl _) (h3 ▸ List.Sublist.refl _) h4 h5

theorem thinned_receiverLost (s : State) (l : Link) : Thinned s (receiverLost s l) := by
  have h1 : Thinned s (s.withLink l (s.hlr.get l).enterLost) := (writes_withLink s l _).thinned (by simp) (by simp)
  have h2 : Thinned s ((s.withLink l (s.hlr.get l).enterLost).withHelm
      { s.helm with lastDeflection := s.helm.lastDeflection.set l 0 }) := h1.trans (thinned_same rfl rfl rfl rfl rfl)
  exact h2.trans ((writes_raise _ _).thinned (by simp) (by simp))

theorem thinned_putIntoUse (l : Link) (s : State) (u : ClaimantUpdate) : Thinned s (putIntoUse l s u) := by
  have h (x : Pair ClaimantSettings) : Thinned s (s.withHelm { s.helm with inUse := x }) := thinned_same rfl rfl rfl rfl rfl
  unfold putIntoUse
  cases u with
  | button => exact (h _).trans ((writes_withLink _ l _).thinned (by simp) (by simp))
  | debounce => exact (h _).trans ((writes_withLink _ l _).thinned (by simp) (by simp))
  | silenceLimit =>
    dsimp only
    split
    · exact ((h _).trans (thinned_receiverLost _ l)).trans (thinned_leave _ _)
    · exact h _
  | _ => exact h _

theorem thinned_putStaged (s : State) (l : Link) : Thinned s (putStaged s l) := by
  have h : Thinned s (s.withHelm { s.helm with staged := s.helm.staged.set l [] }) := thinned_same rfl rfl rfl rfl rfl
  exact h.trans (Thinned.foldl _ (thinned_putIntoUse l) _ _)

theorem thinned_putStagedOf (s : State) (c : Claimant) : Thinned s (putStagedOf s c) := by
  unfold putStagedOf
  split
  · exact thinned_putStaged s _
  · exact .refl s

/-! ## The successor (R112) -/

theorem bestOf_eq_none {level : Claimant → Nat} {l : List Claimant} : bestOf level l = none ↔ l = [] := by
  cases l with
  | nil => simp [bestOf]
  | cons c rest =>
    simp only [bestOf, reduceCtorEq, iff_false]
    split
    · simp
    · split <;> simp

theorem bestOf_mem {level : Claimant → Nat} {l : List Claimant} {c : Claimant} (h : bestOf level l = some c) : c ∈ l := by
  induction l with
  | nil => simp [bestOf] at h
  | cons a rest ih =>
    simp only [bestOf] at h
    split at h
    · simp_all
    · next d hd =>
      split at h
      · exact List.mem_cons_of_mem _ (ih (by rw [hd, ← h]))
      · simp_all

theorem mem_tieOrder {x : Helm} {c : Claimant} : c ∈ x.tieOrder ↔ c ∈ x.stack ∨ c ∈ x.waiting := by
  have hc : c ∈ [Claimant.operator, Claimant.presenter, Claimant.auto] := by cases c <;> simp
  simp only [Helm.tieOrder, List.mem_append, List.mem_filter, decide_eq_true_eq, hc, true_and]

theorem successor_eq_none {s : State} : successor s = none ↔ s.helm.stack = [] ∧ s.helm.waiting = [] := by
  rw [successor, bestOf_eq_none]
  constructor
  · intro h
    have hn (c : Claimant) : ¬(c ∈ s.helm.stack ∨ c ∈ s.helm.waiting) := by
      rw [← mem_tieOrder, h]
      exact List.not_mem_nil
    exact ⟨List.eq_nil_iff_forall_not_mem.mpr fun c hc => hn c (.inl hc),
      List.eq_nil_iff_forall_not_mem.mpr fun c hc => hn c (.inr hc)⟩
  · rintro ⟨h1, h2⟩
    simp [Helm.tieOrder, h1, h2]

theorem mem_of_successor {s : State} {d : Claimant} (h : successor s = some d) : d ∈ s.helm.stack ∨ d ∈ s.helm.waiting :=
  mem_tieOrder.mp (bestOf_mem h)

/-! ## A change of holder -/

/-- What an operation of the helm does to the claimants: they stay as R105 gives them, those of `new` may have come, and a new
holder finds the flags clear and the HELM group shown (R117, R198). -/
structure Passed (new : List Claimant) (s u : State) : Prop where
  ok : ClaimantsOk s.helm → ClaimantsOk u.helm
  among : ∀ d ∈ claimants u.helm, d ∈ claimants s.helm ∨ d ∈ new
  shown : helmShown s → helmShown u
  told : (u.helm.holder = s.helm.holder ∧ (u.helm.paused = true → s.helm.paused = true) ∧
      (u.helm.coast = true → s.helm.coast = true)) ∨
    (u.helm.paused = false ∧ u.helm.coast = false ∧ helmShown u)

theorem claimants_sublist {x y : Helm} (h1 : y.holder = x.holder) (h2 : y.stack.Sublist x.stack) (h3 : y.waiting.Sublist x.waiting) :
    (claimants y).Sublist (claimants x) := by
  unfold claimants
  rw [h1]
  exact ((List.Sublist.refl _).append h2).append h3

namespace Passed

theorem refl (new : List Claimant) (s : State) : Passed new s s := ⟨id, fun _ hd => .inl hd, id, .inl ⟨rfl, id, id⟩⟩

theorem trans {new : List Claimant} {s u v : State} (h : Passed new s u) (h' : Passed new u v) : Passed new s v where
  ok := h'.ok ∘ h.ok
  among d hd := (h'.among d hd).elim (h.among d) .inr
  shown := h'.shown ∘ h.shown
  told := by
    rcases h'.told with ⟨hh, hp, hc⟩ | ht
    · rcases h.told with ⟨hh', hp', hc'⟩ | ⟨hp', hc', hs⟩
      · exact .inl ⟨hh.trans hh', hp' ∘ hp, hc' ∘ hc⟩
      · refine .inr ⟨?_, ?_, h'.shown hs⟩
        · simpa [hp'] using hp
        · simpa [hc'] using hc
    · exact .inr ht

theorem mono {new new' : List Claimant} {s u : State} (h : Passed new s u) (hn : new ⊆ new') : Passed new' s u :=
  { h with among := fun d hd => (h.among d hd).imp id fun hm => hn hm }

theorem of_thinned (new : List Claimant) {s u : State} (h : Thinned s u) : Passed new s u := by
  have hsub := claimants_sublist h.holder h.stack h.waiting
  refine ⟨fun ⟨hn, he⟩ => ⟨hsub.nodup hn, fun hu => ?_⟩, fun d hd => .inl (hsub.subset hd), h.shown,
    .inl ⟨h.holder, by rw [h.paused]; exact id, by rw [h.coast]; exact id⟩⟩
  obtain ⟨hs, hw⟩ := he (h.holder ▸ hu)
  exact ⟨List.sublist_nil.mp (hs ▸ h.stack), List.sublist_nil.mp (hw ▸ h.waiting)⟩

theorem foldl {α : Type} {new : List Claimant} (f : State → α → State) (hf : ∀ s x, Passed new s (f s x)) (xs : List α) (s : State) :
    Passed new s (xs.foldl f s) := by
  induction xs generalizing s with
  | nil => exact refl new s
  | cons x rest ih => exact (hf s x).trans (ih _)

end Passed

theorem Writes.passed {bs : List Block} {s u : State} (h : Writes bs s u) (new : List Claimant) (hh : Block.helm ∉ bs)
    (hs : Block.sru ∉ bs) : Passed new s u := .of_thinned new (h.thinned hh hs)

theorem changeHolder_helm (s : State) (old new : Option Claimant) (k : HelmCause) : (changeHolder s old new k).helm =
    { s.helm with holder := new, paused := false, coast := false, cleared := false } := rfl

theorem changeHolder_shown (s : State) (old new : Option Claimant) (k : HelmCause) : helmShown (changeHolder s old new k) := by
  simp [helmShown, changeHolder, raise, Sru.accept, Sru.eventBits, eventGroup, groupBit]

/-- A change of holder after which the claimants stand as R105 gives them. -/
theorem Passed.changed {new : List Claimant} {s u : State} {old h : Option Claimant} {k : HelmCause}
    (hok : ClaimantsOk s.helm → ClaimantsOk { u.helm with holder := h })
    (ham : ∀ d ∈ claimants { u.helm with holder := h }, d ∈ claimants s.helm ∨ d ∈ new) : Passed new s (changeHolder u old h k) where
  ok := hok
  among := ham
  shown _ := changeHolder_shown u old h k
  told := .inr ⟨rfl, rfl, changeHolder_shown u old h k⟩

theorem nodup_leave {x : Helm} {d : Claimant} {l : List Claimant} (h : (l ++ x.stack ++ x.waiting).Nodup) (hd : d ∉ l) :
    (d :: l ++ (x.leave d).stack ++ (x.leave d).waiting).Nodup := by
  simp only [Helm.leave]
  rw [List.cons_append, List.cons_append, List.nodup_cons]
  refine ⟨by simp [hd], h.sublist ?_⟩
  exact ((List.Sublist.refl _).append List.filter_sublist).append List.filter_sublist

/-- When the holder gives up the helm, the claimants left are those that waited (R111). -/
theorem claimants_releaseHolder (s : State) (c : Claimant) (k : HelmCause) :
    ∀ d ∈ claimants (releaseHolder s c k).helm, d ∈ s.helm.stack ++ s.helm.waiting := by
  have ht : Thinned (s.withHelm { s.helm with holder := none }) (putStagedOf (s.withHelm { s.helm with holder := none }) c) :=
    thinned_putStagedOf _ c
  have hsub := ht.stack.append ht.waiting
  intro e he
  unfold releaseHolder at he
  dsimp only at he
  split at he
  · next hs =>
    obtain ⟨hs1, hs2⟩ := successor_eq_none.mp hs
    simp [claimants, changeHolder_helm, hs1, hs2] at he
  · next d hs =>
    apply hsub.subset
    have hd := mem_of_successor hs
    simp only [claimants, changeHolder_helm, State.withHelm_helm, Helm.leave, Option.toList_some, List.mem_append,
      List.mem_singleton, List.mem_filter] at he
    rcases he with (rfl | ⟨he, -⟩) | ⟨he, -⟩
    · simpa using hd
    · simp [he]
    · simp [he]

theorem passed_releaseHolder (s : State) (c : Claimant) (k : HelmCause) : Passed [] s (releaseHolder s c k) := by
  have ham (d : Claimant) (hd : d ∈ claimants (releaseHolder s c k).helm) : d ∈ claimants s.helm := by
    have := claimants_releaseHolder s c k d hd
    simp only [claimants, List.mem_append] at this ⊢
    tauto
  have ht : Thinned (s.withHelm { s.helm with holder := none }) (putStagedOf (s.withHelm { s.helm with holder := none }) c) :=
    thinned_putStagedOf _ c
  have hsub := ht.stack.append ht.waiting
  unfold releaseHolder at ham ⊢
  dsimp only at ham ⊢
  split at ham
  · next hs =>
    obtain ⟨hs1, hs2⟩ := successor_eq_none.mp hs
    exact .changed (fun _ => ⟨by simp [claimants, hs1, hs2], fun _ => ⟨hs1, hs2⟩⟩) fun d hd => .inl (ham d hd)
  · next d hs =>
    refine .changed (fun hok => ⟨?_, fun h => by cases h⟩) fun e he => .inl (ham e he)
    have hn : (s.helm.stack ++ s.helm.waiting).Nodup := by
      have h := hok.1
      rw [claimants, List.append_assoc] at h
      exact h.of_append_right
    exact nodup_leave (x := (putStagedOf (s.withHelm { s.helm with holder := none }) c).helm) (l := []) (hsub.nodup hn) (by simp)

theorem passed_withdraw (s : State) (c : Claimant) : Passed [] s (withdraw s c) :=
  .of_thinned [] ((thinned_leave s c).trans (thinned_putStagedOf _ c))

theorem claimState_holding {x : Helm} {c : Claimant} : claimState x c = .holding ↔ x.holder = some c := by
  unfold claimState
  split
  · simp [*]
  · next h =>
    simp only [h, iff_false]
    split
    · simp
    · split <;> simp

theorem claimState_idle {x : Helm} {c : Claimant} : claimState x c = .idle ↔ c ∉ claimants x := by
  unfold claimState claimants
  simp only [List.mem_append, Option.mem_toList, not_or]
  split
  · simp_all
  · split
    · simp_all
    · split <;> simp_all

theorem passed_letGo (s : State) (c : Claimant) (k : HelmCause) : Passed [] s (letGo s c k) := by
  unfold letGo
  split
  · exact passed_releaseHolder s c k
  · exact .refl _ _
  · exact passed_withdraw s c

/-- A claimant that has let go has no part in the helm (R111, R113). -/
theorem not_mem_letGo {s : State} (c : Claimant) (k : HelmCause) (h : ClaimantsOk s.helm) : c ∉ claimants (letGo s c k).helm := by
  unfold letGo
  split
  · next hc =>
    intro hm
    have hw := claimants_releaseHolder s c k c hm
    have hn := h.1
    rw [claimants, claimState_holding.mp hc, List.append_assoc] at hn
    exact (List.nodup_cons.mp hn).1 hw
  · next hc => exact claimState_idle.mp hc
  · next hh _ =>
    have ht := thinned_putStagedOf (s.withHelm (s.helm.leave c)) c
    intro hm
    have hm' := (claimants_sublist ht.holder ht.stack ht.waiting).subset hm
    have hne : s.helm.holder ≠ some c := fun he => hh (claimState_holding.mpr he)
    simp only [claimants, State.withHelm_helm, Helm.leave, List.mem_append, List.mem_filter, bne_self_eq_false, Bool.false_eq_true,
      and_false, or_false, Option.mem_toList] at hm'
    exact hne hm'

theorem passed_linkLost (s : State) (l : Link) : Passed [] s (linkLost s l) :=
  (Passed.of_thinned [] (thinned_receiverLost s l)).trans (passed_letGo _ _ _)

theorem passed_preempt {s : State} {h d : Claimant} (k : HelmCause) (hh : s.helm.holder = some h) (hd : d ∉ claimants s.helm) :
    Passed [d] s (preempt s h d k) := by
  refine .changed (fun ⟨hn, _⟩ => ⟨?_, fun h => by cases h⟩) fun e he => ?_
  · have : (d :: claimants s.helm).Nodup := List.nodup_cons.mpr ⟨hd, hn⟩
    simpa [claimants, hh] using this
  · simp only [claimants, State.withHelm_helm, hh, Option.toList_some, List.mem_append, List.mem_cons, List.not_mem_nil,
      or_false] at he ⊢
    tauto

/-- A claim brings in nobody but the claimant (R109). -/
theorem passed_judgeClaim (s : State) (c : Claimant) : Passed [c] s (judgeClaim s c) := by
  unfold judgeClaim
  split
  · exact .of_thinned _ (thinned_same rfl rfl rfl rfl rfl)
  · split
    · exact .refl _ _
    · next hi =>
      have hc : c ∉ claimants s.helm := claimState_idle.mp (by simpa using hi)
      split
      · next hh =>
        refine .changed (fun ⟨_, he⟩ => ?_) fun e he => ?_
        · obtain ⟨h1, h2⟩ := he hh
          exact ⟨by simp [claimants, h1, h2], fun h => by cases h⟩
        · simp only [claimants, hh, Option.toList_some, Option.toList_none, List.mem_append, List.mem_singleton, List.not_mem_nil,
            false_or] at he ⊢
          tauto
      · next h hh =>
        split
        · exact passed_preempt .claim hh hc
        · refine Passed.trans (u := s.withHelm { s.helm with waiting := s.helm.waiting ++ [c] }) 
            ⟨fun ⟨hn, he⟩ => ⟨?_, ?_⟩, ?_, id, .inl ⟨rfl, id, id⟩⟩
            (.of_thinned _ (thinned_putStagedOf _ c))
          · have : (claimants s.helm ++ [c]).Nodup := by
              rw [List.nodup_append]
              refine ⟨hn, List.nodup_singleton c, fun a ha b hb => ?_⟩
              rw [List.mem_singleton.mp hb]
              exact fun he => hc (he ▸ ha)
            simpa [claimants] using this
          · intro h'
            exact absurd (hh.symm.trans h') (by simp)
          · intro e he
            simp only [claimants, State.withHelm_helm, List.mem_append, List.mem_singleton] at he ⊢
            tauto

theorem passed_preemptionTest (s : State) (k : HelmCause) : Passed [] s (preemptionTest s k) := by
  unfold preemptionTest
  split
  · next h d _ hh hs =>
    split
    · have hd := mem_of_successor hs
      have hl : d ∈ claimants s.helm := by
        simp only [claimants, List.mem_append]
        tauto
      have hp : Passed [d] s (preempt (s.withHelm (s.helm.leave d)) h d k) := by
        refine .changed (fun ⟨hn, _⟩ => ⟨?_, fun h => by cases h⟩) fun e he => ?_
        · have hne : d ≠ h := by
            rintro rfl
            simp only [claimants, hh, Option.toList_some, List.cons_append, List.nil_append, List.nodup_cons, List.mem_append] at hn
            exact hn.1 hd
          have hn' : ([h] ++ s.helm.stack ++ s.helm.waiting).Nodup := by simpa [claimants, hh] using hn
          simpa [claimants] using nodup_leave hn' (by simpa using hne)
        · simp only [claimants, State.withHelm_helm, Helm.leave, hh, Option.toList_some, List.mem_append, List.mem_cons,
            List.mem_filter, List.not_mem_nil, or_false] at he ⊢
          tauto
      exact ⟨hp.ok, fun e he => (hp.among e he).elim .inl fun hm => .inl (List.mem_singleton.mp hm ▸ hl), hp.shown, hp.told⟩
    · exact .refl _ _
  · exact .refl _ _

theorem passed_suspendedToPending (s : State) : Passed [] s (suspendedToPending s) := by
  refine Passed.trans (u := s.withHelm { s.helm with stack := [], waiting := s.helm.waiting ++ s.helm.stack })
    ⟨fun ⟨hn, he⟩ => ⟨?_, fun h => ?_⟩, ?_, id, .inl ⟨rfl, id, id⟩⟩ (.of_thinned _ (Thinned.foldl _ thinned_putStagedOf _ _))
  · have hp : (claimants { s.helm with stack := [], waiting := s.helm.waiting ++ s.helm.stack }).Perm (claimants s.helm) := by
      simpa [claimants] using (List.perm_append_comm (l₁ := s.helm.waiting) (l₂ := s.helm.stack)).append_left s.helm.holder.toList
    exact hp.nodup_iff.mpr hn
  · obtain ⟨h1, h2⟩ := he h
    exact ⟨rfl, by simp [h1, h2]⟩
  · intro d hd
    simp only [claimants, State.withHelm_helm, List.mem_append, List.not_mem_nil, or_false] at hd ⊢
    tauto

/-- HELM's share of a run reset frees the helm, and a change of holder shows (R117, R124). -/
theorem passed_helmRunReset (s : State) : Passed [] s (helmRunReset s) := by
  have ht : Thinned (s.withHelm
      { s.helm with holder := none, stack := [], waiting := [], paused := false, coast := false, cleared := false })
      (putStaged (putStaged (s.withHelm
        { s.helm with holder := none, stack := [], waiting := [], paused := false, coast := false, cleared := false })
        .operator) .presenter) := (thinned_putStaged _ _).trans (thinned_putStaged _ _)
  obtain ⟨hh, hs, hw, hp, hc, hsh⟩ := ht
  have hs' := List.sublist_nil.mp hs
  have hw' := List.sublist_nil.mp hw
  unfold helmRunReset
  dsimp only
  split
  · next h =>
    exact ⟨fun _ => ⟨by simp [claimants, hh, hs', hw'], fun _ => ⟨hs', hw'⟩⟩, fun d hd => by simp [claimants, hh, hs', hw'] at hd, hsh,
      .inl ⟨by rw [hh, h]; rfl, by simp [hp], by simp [hc]⟩⟩
  · next h0 h =>
    refine ⟨fun _ => ⟨by simp [claimants, hh, hs', hw'], fun _ => ⟨hs', hw'⟩⟩, fun d hd => by simp [claimants, hh, hs', hw'] at hd,
      fun _ => ?_, .inr ⟨hp, hc, ?_⟩⟩ <;>
    simp [helmShown, raise, Sru.accept, Sru.eventBits, eventGroup, groupBit]

/-! ## The operations of the receivers and of the settings -/

theorem passed_handDeflection (s : State) (l : Link) (d : Int) : Passed [claimantOf l] s (handDeflection s l d) := by
  have h : Passed [claimantOf l] s (s.withHelm { s.helm with lastDeflection := s.helm.lastDeflection.set l d }) :=
    .of_thinned _ (thinned_same rfl rfl rfl rfl rfl)
  unfold handDeflection
  dsimp only
  split
  · exact h.trans (passed_judgeClaim _ _)
  · exact h

theorem passed_clearCoast (s : State) (l : Link) (new : List Claimant) : Passed new s (clearCoast s l) := by
  unfold clearCoast
  split
  · exact ⟨id, fun d hd => .inl hd, id, .inl ⟨rfl, id, fun h => by cases h⟩⟩
  · exact .refl _ _

theorem passed_takeReport (s : State) (l : Link) (n d b : Byte) : Passed [claimantOf l] s (takeReport s l n d b) := by
  have link (u : State) (x : Hlr) : Passed [claimantOf l] u (u.withLink l x) := (writes_withLink u l x).passed _ (by simp) (by simp)
  have h1 : Passed [claimantOf l] s (reportFound s l) := (writes_reportFound s l).passed _ (by simp) (by simp)
  have h2 := (h1.trans (link _ ((reportFound s l).hlr.get l).restartSilence)).trans (passed_clearCoast _ l _)
  exact (((h2.trans (link _ _)).trans (passed_handDeflection _ l _)).trans (link _ _)).trans (link _ _)

theorem passed_handByte (l : Link) (s : State) (b : RxByte) : Passed [claimantOf l] s (handByte l s b) := by
  have link (x : Hlr) : Passed [claimantOf l] s (s.withLink l x) := (writes_withLink s l x).passed _ (by simp) (by simp)
  unfold handByte
  dsimp only
  split
  · exact link _
  · split
    · exact link _
    · split
      · exact link _
      · split
        · split
          · exact (link _).trans (passed_takeReport _ _ _ _ _)
          · exact link _
        · exact link _

theorem passed_handBytes (l : Link) (bytes : List RxByte) (s : State) : Passed [claimantOf l] s (handBytes l bytes s) := by
  unfold handBytes
  split
  · refine Passed.foldl _ (fun u b => ?_) _ _
    exact ((writes_withFtu u _).passed _ (by simp) (by simp)).trans (passed_handByte l _ b)
  · exact .refl _ _

/-- The silence counted and coast set, before the link is judged (R100, R102). -/
def silenceCounted (s : State) (l : Link) : State :=
  let counted := s.withLink l { s.hlr.get l with silence := min 80 ((s.hlr.get l).silence + 1), silenceDue := false }
  if s.helm.holder = some (claimantOf l) ∧
      coastThreshold (s.helm.inUse.get l).silenceLimit ≤ min 80 ((s.hlr.get l).silence + 1) then
    counted.withHelm { s.helm with coast := true }
  else counted

theorem silenceExpires_eq (s : State) (l : Link) : silenceExpires s l =
    if ((silenceCounted s l).hlr.get l).silent (s.helm.inUse.get l).silenceLimit then linkLost (silenceCounted s l) l
    else silenceCounted s l := rfl

/-- Counting a silence may set coast, and leaves HELM otherwise as it is. -/
theorem silenceCounted_helm (s : State) (l : Link) :
    (silenceCounted s l).helm = { s.helm with coast := (silenceCounted s l).helm.coast } := by
  unfold silenceCounted
  dsimp only
  split <;> rfl

/-- A silence expiry leaves the claimants as R105 gives them, and a new holder finds the flags clear (R101, R113, R117). -/
theorem silenceExpires_claimants (s : State) (l : Link) :
    (ClaimantsOk s.helm → ClaimantsOk (silenceExpires s l).helm) ∧
    (∀ d ∈ claimants (silenceExpires s l).helm, d ∈ claimants s.helm) ∧
    ((silenceExpires s l).helm.holder = s.helm.holder ∨
      ((silenceExpires s l).helm.paused = false ∧ (silenceExpires s l).helm.coast = false ∧ helmShown (silenceExpires s l))) := by
  have hv := silenceCounted_helm s l
  have hok : ClaimantsOk (silenceCounted s l).helm ↔ ClaimantsOk s.helm := by rw [hv]; exact Iff.rfl
  have hcl : claimants (silenceCounted s l).helm = claimants s.helm := by rw [hv]; rfl
  have hho : (silenceCounted s l).helm.holder = s.helm.holder := by rw [hv]
  rw [silenceExpires_eq]
  split
  · obtain ⟨h1, h2, -, h4⟩ := passed_linkLost (silenceCounted s l) l
    refine ⟨fun h => h1 (hok.mpr h), fun d hd => ?_, h4.imp (fun h => h.1.trans hho) id⟩
    rw [← hcl]
    simpa using h2 d hd
  · exact ⟨hok.mpr, fun d hd => hcl ▸ hd, .inl hho⟩

theorem passed_takeClaimantSetting (s : State) (o : Nat) (l : Link) (f : ClaimantField) (w : Word) :
    Passed [] s (takeClaimantSetting s o l f w) := by
  have h : Passed [] s (if (takeClaimantWord f w).clamped
      then raise s (.settingClamped o (.ofNat 16 (takeClaimantWord f w).effective) w) else s) := by
    split
    · exact (writes_raise s _).passed _ (by simp) (by simp)
    · exact .refl _ _
  unfold takeClaimantSetting
  dsimp only
  split
  · exact h.trans (.of_thinned _ (thinned_putIntoUse l _ _))
  · exact h.trans (.of_thinned _ (thinned_putIntoUse l _ _))
  · exact h.trans (.of_thinned _ (thinned_same rfl rfl rfl rfl rfl))

/-- The settings part of a taking leaves HELM alone. -/
theorem passed_settings (s : State) (o n : Nat) (w : Word) (c : Settings) (new : List Claimant) :
    Passed new s (withSettings (reportClamp s o n w) c) := by
  have h := (writes_reportClamp s o n w).passed new (by simp) (by simp)
  exact h.trans ⟨id, fun d hd => .inl hd, id, .inl ⟨rfl, id, id⟩⟩

theorem passed_takeHelmMode (s : State) (o : Nat) (w : Word) : Passed [] s (takeHelmMode s o w) := by
  unfold takeHelmMode
  dsimp only
  split
  · exact (passed_settings ..).trans (passed_suspendedToPending _)
  · exact (passed_settings ..).trans (passed_preemptionTest _ _)
  · exact passed_settings ..

theorem passed_takeLevel (s : State) (o : Nat) (c : Claimant) (w : Word) : Passed [] s (takeLevel s o c w) :=
  (passed_settings ..).trans (passed_preemptionTest _ _)

theorem passed_takeAutoEnable (s : State) (o : Nat) (w : Word) : Passed [.auto] s (takeAutoEnable s o w) := by
  unfold takeAutoEnable
  dsimp only
  split
  · exact (passed_settings ..).trans (passed_judgeClaim _ _)
  · exact ((passed_settings ..).trans (passed_letGo _ _ _)).mono (by simp)

theorem passed_takeLateShare (s : State) : Passed [] s (takeLateShare s) := by
  unfold takeLateShare
  split
  · obtain ⟨h1, h2, h3, h4⟩ := passed_helmRunReset s
    exact ⟨h1, h2, h3, h4⟩
  · exact .refl _ _

theorem passed_startRunReset (s : State) (late : Bool) : Passed [] s (startRunReset s late) := by
  have hb : Passed [] s (blockShares s) :=
    ⟨by simp [blockShares], by simp [blockShares], by simp [helmShown, blockShares], .inl (by simp [blockShares])⟩
  have ha : Passed [] s (afterShares s late) := by
    unfold afterShares
    split
    · exact ⟨hb.ok, hb.among, hb.shown, hb.told⟩
    · exact hb.trans (passed_helmRunReset _)
  rw [startRunReset_eq]
  split
  · have hf : Passed [] (afterShares s late) (raise (afterShares s late) (.reset .run)) :=
      (writes_raise _ _).passed _ (by simp) (by simp)
    obtain ⟨h1, h2, h3, h4⟩ := ha.trans hf
    exact ⟨h1, h2, h3, h4⟩
  · exact ha

end Sys2Proof.Machine

/-! The helm's invariant and its changes of holder, over every command (R105, R117, R198). -/

namespace Sys2Proof.Machine

open Sys2Proof.Config

/-- What a command short of a master reset does to the claimants: the newcomers are AUTO only by its enable word, and a new holder
finds the flags clear and the HELM group shown. -/
structure HelmActs (c : Instr) (s u : State) : Prop where
  ok : ClaimantsOk s.helm → ClaimantsOk u.helm
  among : ∀ d ∈ claimants u.helm, d ∈ claimants s.helm ∨ d ≠ .auto ∨ c = .autoEnableWrite
  told : u.helm.holder = s.helm.holder ∨ (u.helm.paused = false ∧ u.helm.coast = false ∧ helmShown u)

theorem Passed.helmActs {new : List Claimant} {s u : State} (h : Passed new s u) {c : Instr}
    (hn : ∀ d ∈ new, d ≠ .auto ∨ c = .autoEnableWrite) : HelmActs c s u :=
  ⟨h.ok, fun d hd => (h.among d hd).imp id (hn d), h.told.imp (·.1) id⟩

theorem Passed.helmActs_nil {s u : State} (h : Passed [] s u) (c : Instr) : HelmActs c s u :=
  h.helmActs fun _ hd => absurd hd List.not_mem_nil

theorem Passed.helmActs_link {s u : State} {l : Link} (h : Passed [claimantOf l] s u) (c : Instr) : HelmActs c s u :=
  h.helmActs fun d hd => .inl (by rw [List.mem_singleton.mp hd]; cases l <;> simp [claimantOf])

/-- HELM as it was, but for its flags and its settings. -/
theorem helmActs_of_same {c : Instr} {s u : State} (h1 : u.helm.holder = s.helm.holder) (h2 : u.helm.stack = s.helm.stack)
    (h3 : u.helm.waiting = s.helm.waiting) : HelmActs c s u := by
  have hc : claimants u.helm = claimants s.helm := by simp [claimants, h1, h2, h3]
  exact ⟨fun h => by rwa [ClaimantsOk, hc, h1, h2, h3], fun d hd => .inl (hc ▸ hd), .inl h1⟩

theorem helmActs_of_writes {bs : List Block} {c : Instr} {s u : State} (h : Writes bs s u) (hh : Block.helm ∉ bs) : HelmActs c s u := by
  have e := h.helm hh
  exact helmActs_of_same (by rw [e]) (by rw [e]) (by rw [e])

theorem HelmActs.trans {c : Instr} {s v u : State} (h : HelmActs c s v) (h' : Passed [] v u) : HelmActs c s u := by
  refine ⟨h'.ok ∘ h.ok, fun d hd => ?_, ?_⟩
  · rcases h'.among d hd with hd | hd
    · exact h.among d hd
    · cases hd
  · rcases h'.told with ⟨hh, hp, hc⟩ | ht
    · rcases h.told with hh' | ⟨hp', hc', hs⟩
      · exact .inl (hh.trans hh')
      · exact .inr ⟨by simpa [hp'] using hp, by simpa [hc'] using hc, h'.shown hs⟩
    · exact .inr ht

theorem afterInstall_helm (s : State) : (afterInstall s).helm = s.helm := by
  unfold afterInstall
  split
  · exact (writes_installMap _).helm (by simp)
  · rfl

/-- A frame step may set the paused flag, and leaves HELM otherwise as it is (R60). -/
theorem frameStep_helm (s : State) : ∃ stop, (frameStep s).helm = s.helm.stepTaken stop := by
  rw [frameStep_eq]
  split
  · exact ⟨false, by rw [State.withHelm_helm, afterInstall_helm]⟩
  · exact ⟨_, by rw [raiseAll_helm, State.withHelm_helm, afterInstall_helm]⟩

theorem pauseAction_same (s : State) (c : Claimant) (q : Qualifier) : (pauseAction s c q).helm.holder = s.helm.holder ∧
    (pauseAction s c q).helm.stack = s.helm.stack ∧ (pauseAction s c q).helm.waiting = s.helm.waiting := by
  unfold pauseAction
  split
  · cases q <;> exact ⟨rfl, rfl, rfl⟩
  · exact ⟨rfl, rfl, rfl⟩

theorem acts_helm {c : Instr} {b : Bool} {s u : State} (h : Acts s c b u) (hc : ¬mayReset c) : HelmActs c s u := by
  have hw := acts_writes h
  have handover (rest : List Handover) : Passed [] s (afterHandover s rest) :=
    (writes_afterHandover s rest).passed _ (by simp) (by simp)
  have fired (l : Link) (rest : List Fired) (new : List Claimant) : Passed new s (afterFired s l rest) :=
    (writes_afterFired s l rest).passed _ (by simp) (by simp)
  cases h with
  | powerOn | masterReset | initialisation | resetPinRise => exact absurd trivial hc
  | frameStep =>
    obtain ⟨stop, hs⟩ := frameStep_helm (s.withFtu { s.ftu with due := { s.ftu.due with sce := false } })
    exact (helmActs_of_same (by rw [hs]; rfl) (by rw [hs]; rfl) (by rw [hs]; rfl)).trans (passed_takeLateShare _)
  | curveLoad => exact helmActs_of_same rfl rfl rfl
  | handReport | byteGap | framingError => exact (passed_handBytes _ _ _).helmActs_link _
  | take => exact ((fired _ _ _).trans (passed_judgeClaim _ _)).helmActs_link _
  | release => exact ((fired _ _ _).trans (passed_letGo _ _ _)).helmActs_nil _
  | @pause l f rest =>
    obtain ⟨h1, h2, h3⟩ := pauseAction_same (afterFired s l rest) (claimantOf l) f.qualifier
    exact helmActs_of_same h1 h2 h3
  | @silenceTimerExpiry l =>
    obtain ⟨h1, h2, h3⟩ := silenceExpires_claimants s l
    exact ⟨h1, fun d hd => .inl (h2 d hd), h3⟩
  | @runReset late _ _ rest => exact ((handover rest).trans (passed_startRunReset _ late)).helmActs_nil _
  | runResetIgnored => exact (handover _).helmActs_nil _
  | helmModeWrite => exact ((handover _).trans (passed_takeHelmMode _ _ _)).helmActs_nil _
  | levelWrite => exact ((handover _).trans (passed_takeLevel _ _ _ _)).helmActs_nil _
  | autoEnableWrite =>
    exact (((handover _).mono (by simp)).trans (passed_takeAutoEnable _ _ _)).helmActs fun _ _ => .inr rfl
  | claimantSettingWrite => exact ((handover _).trans (passed_takeClaimantSetting _ _ _ _ _)).helmActs_nil _
  | _ => exact helmActs_of_writes hw (by simp)

/-- AUTO's enable word taken as 0 leaves AUTO out of the helm (R110, R113). -/
theorem not_mem_takeAutoEnable {s : State} (o : Nat) {w : Word} (h : ClaimantsOk s.helm) (hw : flagOf w = false) :
    .auto ∉ claimants (takeAutoEnable s o w).helm := by
  unfold takeAutoEnable
  dsimp only
  rw [hw]
  exact not_mem_letGo .auto .autoOff ((passed_settings s o _ w _ []).ok h)

theorem HelmOk.congr {s u : State} (h : HelmOk s) (hh : u.helm = s.helm) (hs : u.sru.set.autoEnable = s.sru.set.autoEnable) :
    HelmOk u := by
  rw [helmOk_iff] at h ⊢
  rwa [hh, hs]

theorem helmOk_exec {c : Instr} {s t : State} (h : HelmOk s) (he : exec c s = .next t) : HelmOk t := by
  refine kept_by_exec_reset h (fun k => ?_) (fun v u hv hw => hv.congr (hw.helm (by simp)) (by rw [hw.set (by simp)]))
    (fun b u hu hc => ?_) (fun u hu => ?_) (fun u hu => hu.congr (arbitrate_helm u) (by rw [arbitrate_sru_set])) he
  · exact (helmOk_iff _).mpr ⟨⟨List.nodup_nil, fun _ => ⟨rfl, rfl⟩⟩, fun _ => List.not_mem_nil⟩
  · obtain ⟨hok, hauto⟩ := (helmOk_iff s).mp h
    have ha := acts_helm hu hc
    have hr := acts_retaken hu hc
    refine (helmOk_iff u).mpr ⟨ha.ok hok, fun hoff hm => ?_⟩
    by_cases hc' : c = .autoEnableWrite
    · subst hc'
      cases hu with
      | @autoEnableWrite o w rest hh hcw =>
        have hoff' : flagOf w = false := by rwa [takeAutoEnable_set] at hoff
        exact not_mem_takeAutoEnable (s := afterHandover s rest) o hok hoff' hm
    · rw [hr.autoEnable_eq hc'] at hoff
      rcases ha.among _ hm with hm | hne | hc''
      · exact hauto hoff hm
      · exact hne rfl
      · exact hc' hc''
  · exact hu.congr ((writes_takePresented u).helm (by simp)) (by rw [(writes_takePresented u).set (by simp)])

/-- Settles O43, by what each operation of the helm does to the claimants. -/
theorem helmInvariant : Obligations.HelmInvariant := fun _ _ _ h he => helmOk_exec h he

theorem finish_helm (b : Bool) (u : State) : (finish b u).helm = u.helm := by
  cases b
  · exact arbitrate_helm u
  · exact (arbitrate_helm _).trans ((writes_takePresented u).helm (by simp))

theorem finish_shown {b : Bool} {u : State} (h : helmShown u) : helmShown (finish b u) := by
  cases b
  · exact (congrArg (BitVec.getLsbD · 3) (arbitrate_sru_latch u)).trans h
  · exact (congrArg (BitVec.getLsbD · 3) (arbitrate_sru_latch _)).trans (((writes_takePresented u).sru (by simp)).latch h)

/-- Settles O44, by what each operation of the helm does to the claimants. -/
theorem holderChange : Obligations.HolderChange := by
  intro c s t hc he hne
  rcases exec_inv he with rfl | ⟨b, u, hu, rfl⟩
  · exact absurd rfl hne
  · rw [finish_helm] at hne ⊢
    rcases (acts_helm hu hc).told with hh | ⟨hp, hco, hs⟩
    · exact absurd hh hne
    · exact ⟨hp, hco, finish_shown hs⟩

end Sys2Proof.Machine

/-! The hold queue: what each operation makes of it (R30, R34 to R43). -/

namespace Sys2Proof.Machine

open Sys2Proof.Config

/-- What may become of the hold queue short of a release performed: entries change state, and where `p` allows it a write joins an
entry or makes one (R35, R36, R39 to R43). -/
inductive Edited (p : Prop) (q : List HoldEntry) : List HoldEntry → Prop
  | refl : Edited p q q
  | restate {r} (h : Edited p q r) (f : HoldEntry → HoldState) : Edited p q (r.map fun e => { e with state := f e })
  | join {r} (h : Edited p q r) (hp : p) (wa : Nat) {lanes : Lanes} (data : Word)
      (hl : lanes &&& ~~~(contentLanes (slotWordOf wa)) = 0) :
      Edited p q (r.map fun e =>
        if e.wa = wa then { e with mask := e.mask ||| lanes, data := mergeLanes lanes data e.data } else e)
  | make {r} (h : Edited p q r) (hp : p) {e : HoldEntry} (he : entryOk e) (hn : ∀ x ∈ r, x.wa ≠ e.wa)
      (hr : r.length < holdCapacity) : Edited p q (r ++ [e])

namespace Edited

theorem trans {p : Prop} {q r k : List HoldEntry} (h : Edited p q r) (h' : Edited p r k) : Edited p q k := by
  induction h' with
  | refl => exact h
  | restate _ f ih => exact ih.restate f
  | join _ hp wa data hl ih => exact ih.join hp wa data hl
  | make _ hp he hn hr ih => exact ih.make hp he hn hr

theorem mono {p p' : Prop} {q r : List HoldEntry} (h : Edited p q r) (hpp : p → p') : Edited p' q r := by
  induction h with
  | refl => exact .refl
  | restate _ f ih => exact ih.restate f
  | join _ hp wa data hl ih => exact ih.join (hpp hp) wa data hl
  | make _ hp he hn hr ih => exact ih.make (hpp hp) he hn hr

theorem of_eq {p : Prop} {q r : List HoldEntry} (h : r = q) : Edited p q r := h ▸ .refl

/-- Entries put into one state by a test. -/
theorem of_test {p : Prop} {q r : List HoldEntry} (t : HoldEntry → Prop) [DecidablePred t] (st : HoldState)
    (h : r = q.map fun e => if t e then { e with state := st } else e) : Edited p q r := by
  have hm : r = q.map fun e => { e with state := if t e then st else e.state } := by
    rw [h]
    refine List.map_congr_left fun e _ => ?_
    split <;> rfl
  exact hm ▸ Edited.refl.restate _

end Edited

/-! ## The operations of the edit hold unit -/

theorem edited_recompute (p : Prop) (x : Ehu) (new : List OnAir) : Edited p x.queue (x.recompute new).queue :=
  .of_test (fun e => (onList x.onAir e.slot && !onList new e.slot) = true) .releasing rfl

theorem edited_recomputeOnAir (p : Prop) (s : State) : Edited p s.ehu.queue (recomputeOnAir s).ehu.queue := edited_recompute p _ _

theorem edited_commit (p : Prop) (x : Ehu) (mode : EditMode) (slot : Nat) : Edited p x.queue (x.commit mode slot).queue := by
  unfold Ehu.commit
  split
  · exact .of_test (fun e => e.slot = slot ∧ e.state = .held) .marked rfl
  · exact .refl

theorem edited_spill (p : Prop) (x : Ehu) : Edited p x.queue x.spill.1.queue := by
  unfold Ehu.spill
  split
  · exact .refl
  · next o _ => exact .of_test (fun e => e.slot = o.slot) .releasing rfl

theorem edited_releaseMarked (p : Prop) (x : Ehu) : Edited p x.queue x.releaseMarked.queue :=
  .of_test (fun e => e.state = .marked) .releasing rfl

theorem edited_expireSlot (p : Prop) (limit : Nat) (tick : Word) (acc : Ehu × List Event) (slot : Nat) :
    Edited p acc.1.queue (Ehu.expireSlot limit tick acc slot).1.queue := by
  unfold Ehu.expireSlot
  split
  · exact .of_test (fun e => e.slot = slot ∧ e.state = .held) .releasing rfl
  · exact .refl

theorem edited_boundary (p : Prop) (x : Ehu) (limit : Nat) (tick : Word) : Edited p x.queue (x.boundary limit tick).1.queue := by
  have fold (l : List Nat) (acc : Ehu × List Event) :
      Edited p acc.1.queue (l.foldl (Ehu.expireSlot limit tick) acc).1.queue := by
    induction l generalizing acc with
    | nil => exact .refl
    | cons slot rest ih => exact (edited_expireSlot p limit tick acc slot).trans (ih _)
  unfold Ehu.boundary
  split
  · exact edited_releaseMarked p x
  · exact (edited_releaseMarked p x).trans (fold _ (x.releaseMarked, []))

theorem edited_runReset (p : Prop) (x : Ehu) : Edited p x.queue x.runReset.queue := Edited.refl.restate _

theorem nearFullTest_queue_eq (s : State) : (nearFullTest s).ehu.queue = s.ehu.queue := nearFullTest_queue s

/-! ## A write decided (R35) -/

theorem contentLanes_and (be : Lanes) (k : Nat) : (be &&& contentLanes k) &&& ~~~(contentLanes k) = 0 := by
  rw [BitVec.and_assoc, BitVec.and_not_self]
  exact BitVec.and_zero

theorem edited_commitActs (p : Prop) (s : State) (a : Access) : Edited p s.ehu.queue (commitActs s a).ehu.queue := by
  unfold commitActs
  split
  · exact .refl
  · exact edited_commit p _ _ _

theorem decideContent_make {x : Ehu} {mode : EditMode} {wa slot : Nat} (h : decideContent x mode wa slot = .make) :
    (∀ e ∈ x.queue, e.wa ≠ wa) ∧ x.queue.length < holdCapacity := by
  unfold decideContent at h
  split at h
  · cases h
  · next hn =>
    refine ⟨fun e he hw => hn (List.any_eq_true.mpr ⟨e, he, by simpa using hw⟩), ?_⟩
    split at h
    · split at h
      · assumption
      · cases h
    · split at h
      · assumption
      · cases h
    · cases h

/-- The entry a held write makes is as R34 gives it. -/
theorem entryOk_made {a : Access} (hline : windowOf a.ha.toNat = .line)
    (hc : ¬a.be &&& contentLanes (slotWordOf a.ha.toNat) = 0) (tick : Word) :
    entryOk ⟨a.ha.toNat, a.be &&& contentLanes (slotWordOf a.ha.toNat), a.data, slotOf a.ha.toNat, tick, .held⟩ := by
  refine ⟨?_, a.ha.isLt, rfl, hc, contentLanes_and _ _⟩
  unfold windowOf at hline
  repeat' split at hline
  all_goals simp_all

theorem carry_ehu (s : State) (a : Access) (lanes : Lanes) (w : Bool) : (carry s a lanes w).ehu = s.ehu := rfl

/-- A write decided joins an entry, makes one, or leaves the entries but for their states (R35, R36, R39, R42). -/
theorem edited_decideWrite (s : State) {a : Access} (w : Bool) (hline : windowOf a.ha.toNat = .line) :
    Edited True s.ehu.queue (decideWrite s a w).ehu.queue := by
  unfold decideWrite
  dsimp only
  split
  · exact edited_commitActs _ s a
  · next hc =>
    split
    · exact (Edited.refl.join trivial a.ha.toNat a.data (contentLanes_and _ _)).trans
        (edited_commitActs True (s.withEhu (s.ehu.joinEntry a.ha.toNat _ a.data)) a)
    · next hd =>
      obtain ⟨hn, hroom⟩ := decideContent_make hd
      have hm := (Edited.refl (p := True)).make trivial (entryOk_made hline hc s.ftu.tick) hn hroom
      rw [carry_ehu]
      refine Edited.trans ?_ (edited_commitActs True _ a)
      rw [nearFullTest_queue_eq]
      exact hm
    · simpa using edited_spill True s.ehu
    · exact edited_commitActs _ s a

theorem edited_structureSeen (s : State) (a : Access) : (structureSeen s a).ehu = s.ehu := (writes_structureSeen s a).ehu (by simp)

theorem edited_takeAccess {q : List HoldEntry} {s : State} (h : Edited True q s.ehu.queue) (a : Access) :
    Edited True q (takeAccess s a).ehu.queue := by
  refine h.trans ?_
  unfold takeAccess
  split
  · split
    · exact .refl
    · exact .refl
    · split <;> exact .refl
    · exact .of_eq (by rw [carry_ehu, edited_structureSeen])
    · next hline =>
      have h := edited_decideWrite (structureSeen s a) false hline
      rwa [edited_structureSeen] at h
  · exact .refl

theorem edited_takePresented (s : State) : Edited True s.ehu.queue (takePresented s).ehu.queue := by
  rcases takePresented_cases s with ⟨h, -⟩ | ⟨a, -, -, h⟩ <;> rw [h]
  · exact .refl
  · have hp (x : Ptp) : Edited True s.ehu.queue (s.withPtp x).ehu.queue := .refl
    exact edited_takeAccess (hp _) a

/-! ## The commands -/

theorem edited_frameStep {p : Prop} {q : List HoldEntry} {s : State} (h : Edited p q s.ehu.queue) :
    Edited p q (frameStep s).ehu.queue := by
  refine h.trans ?_
  have hi : Edited p s.ehu.queue (afterInstall s).ehu.queue := by
    unfold afterInstall
    split
    · refine Edited.trans (.of_eq ?_) (edited_recomputeOnAir p _)
      simp
    · exact .refl
  rw [frameStep_eq]
  split
  · exact hi
  · simpa using hi

theorem edited_hltFrame {p : Prop} {q : List HoldEntry} {s : State} (h : Edited p q s.ehu.queue) (k : Head) :
    Edited p q (hltFrame s k).ehu.queue := by
  refine h.trans ?_
  have same {bs : List Block} {u v : State} (h : Writes bs u v) (hb : Block.ehu ∉ bs) : Edited p u.ehu.queue v.ehu.queue :=
    .of_eq (by rw [h.ehu hb])
  have route (u : State) : Edited p u.ehu.queue (loadRoute u k).ehu.queue := by
    unfold loadRoute
    dsimp only
    split
    · have hs : Edited p u.ehu.queue (if (u.hlt.get k).state = .silent
          then u.withHead k ((u.hlt.get k).changeRoute (u.sru.set.routes.get k))
          else raise (u.withHead k ((u.hlt.get k).changeRoute (u.sru.set.routes.get k))) (.headState k .silent 0)).ehu.queue := by
        split <;> exact .refl
      split
      · exact hs.trans (edited_recomputeOnAir p _)
      · exact hs
    · exact .refl
  have send (u : State) : Edited p u.ehu.queue (sendFrame u k).ehu.queue := by
    unfold sendFrame
    dsimp only
    split
    · exact (edited_recomputeOnAir p (u.withHead k _))
    · exact .refl
  have h1 : Edited p s.ehu.queue (loadInject (loadRoute (orphanOf (s.withHead k (s.hlt.get k).close) (.hlt k)) k) k).ehu.queue :=
    ((same ((writes_withHead s k _)) (by simp)).trans (same (writes_orphanOf _ _) (by simp))).trans
      ((route _).trans (same (writes_loadInject _ k) (by simp)))
  unfold hltFrame
  dsimp only
  split
  · exact h1
  · exact (h1.trans (same (writes_judgeLag _ k) (by simp))).trans (send _)

theorem edited_startRunReset {p : Prop} {q : List HoldEntry} {s : State} (h : Edited p q s.ehu.queue) (late : Bool) :
    Edited p q (startRunReset s late).ehu.queue := by
  rw [(writes_startRunReset_shares s late).ehu (by simp)]
  exact h.trans (edited_runReset p _)

theorem guardUpdate_queue (s : State) (wa : Nat) (lanes : Lanes) (data : Word) :
    (guardUpdate s wa lanes data).ehu.queue = s.ehu.queue := by
  unfold guardUpdate
  split <;> rfl

theorem watchers_queue (s : State) (wa : Nat) (lanes : Lanes) (data : Word) :
    (watchers s wa lanes data).ehu.queue = s.ehu.queue := by
  unfold watchers
  dsimp only
  split <;> exact guardUpdate_queue ..

/-- Short of a master reset and of a release performed, a command edits the queue, and only a retry brings a write into it. -/
theorem acts_edited {c : Instr} {b : Bool} {s u : State} (h : Acts s c b u) (hc : ¬mayReset c) (hr : c ≠ .releaseWriteDone)
    (hline : ∀ k, s.ptp.carried = some k → k.stage = .spill true → windowOf k.acc.ha.toNat = .line) :
    Edited (c = .spillRetry) s.ehu.queue u.ehu.queue := by
  have hw := acts_writes h
  have hf (f : Ftu) : Edited (c = .spillRetry) s.ehu.queue (s.withFtu f).ehu.queue := .refl
  have hp (rest : List Handover) : Edited (c = .spillRetry) s.ehu.queue (afterHandover s rest).ehu.queue := .refl
  have settings (u : State) (hu : Edited (c = .spillRetry) s.ehu.queue u.ehu.queue) (o n : Nat) (w : Word) (x : Settings) :
      Edited (c = .spillRetry) s.ehu.queue (withSettings (reportClamp u o n w) x).ehu.queue :=
    hu.trans (.of_eq (by rw [(writes_withSettings _ x).ehu (by simp), (writes_reportClamp u o n w).ehu (by simp)]))
  cases h with
  | powerOn | masterReset | initialisation | resetPinRise => exact absurd trivial hc
  | releaseWriteDone | releaseWriteLeft => exact absurd rfl hr
  | frameStep => exact (edited_frameStep (hf _)).trans (.of_eq (by rw [(writes_takeLateShare _).ehu (by simp)]))
  | ehuBoundary => simpa using edited_boundary _ s.ehu _ _
  | hltFrame k => exact edited_hltFrame (hf _) k
  | spillRetry hk hs =>
    rw [(writes_endWithdrawn _).ehu (by simp)]
    exact (edited_decideWrite s _ (hline _ hk hs)).mono fun _ => rfl
  | processorWriteDone =>
    refine .of_eq ?_
    rw [(writes_completeCarried _).ehu (by simp), watchers_queue]
    rfl
  | runReset => exact edited_startRunReset (hp _) _
  | runResetIgnored | guardReadDone | guardReadLeft | processorWriteLeft => exact .refl
  | guardBandWrite => exact (settings _ (hp _) _ _ _ _).trans (edited_recomputeOnAir _ _)
  | nearFullThresholdWrite => exact (settings _ (hp _) _ _ _ _).trans (.of_eq (nearFullTest_queue_eq _))
  | _ => exact .of_eq (by rw [hw.ehu (by simp)])

end Sys2Proof.Machine

/-! The memory port: what a command leaves of an access in progress, and what the arbiter may grant (R172 to R174). -/

namespace Sys2Proof.Machine

open Sys2Proof.Config

/-! ## What a command leaves at the port -/

theorem inProgress_eq_some {s : State} {o : Owner} {w : Bool} {a : PortAccess} (h : inProgress s o w = some a) :
    s.port.busy = some a ∧ a.owner = o ∧ a.write = w := by
  unfold inProgress at h
  split at h
  · next b hb =>
    split at h
    · next hw => cases h; exact ⟨hb, hw⟩
    · cases h
  · cases h

/-- What may become of the access in progress before the arbiter acts: it stays, its requester abandons it, the SRU no other than a
status write, or it is performed, where `p` says that its owner's may be (R172, R196). -/
inductive Serves (p : Owner → Prop) (q : Option SruAccess) (x : Option PortAccess) : Option PortAccess → Prop
  | same : Serves p q x x
  | abandoned {a r} (h : x = some a) (ho : a.owner = .part r) (hr : r = .sru → q = some .status) :
      Serves p q x (some { a with orphan := true })
  | performed {a} (h : x = some a) (ho : p a.owner) : Serves p q x none

/-- The owners whose access at the port a command performs. -/
def performs : Instr → Owner → Prop
  | .rowReadDone, o => ∃ k, o = .part (.hlt k)
  | .walkReadDone, o => o = .part .rwk
  | .processorWriteDone, o => o = .processor
  | .processorReadDone, o => o = .processor
  | .sruWriteDone, o => o = .part .sru
  | .releaseWriteDone, o => o = .part .ehu
  | .guardReadDone, o => o = .part .ehu
  | _, _ => False

namespace Serves

variable {p : Owner → Prop} {q : Option SruAccess} {x y : Option PortAccess}

theorem of_eq (h : y = x) : Serves p q x y := h ▸ .same

theorem of_free {s : State} {o : Owner} {w : Bool} {a : PortAccess} (h : inProgress s o w = some a) (ho : p o) (hy : y = none) :
    Serves p q s.port.busy y := by
  obtain ⟨h1, h2, -⟩ := inProgress_eq_some h
  exact hy ▸ .performed h1 (h2 ▸ ho)

/-- An access in progress was in progress before, if it has not been abandoned since. -/
theorem from_before (h : Serves p q x y) {a : PortAccess} (ha : y = some a) : ∃ b, x = some b ∧ (a = b ∨ a = { b with orphan := true }) := by
  cases h with
  | same => exact ⟨a, ha, .inl rfl⟩
  | @abandoned d _ hd => cases ha; exact ⟨d, hd, .inr rfl⟩
  | performed => cases ha

theorem own (h : Serves p q x y) {a : PortAccess} (ha : y = some a) (ho : a.orphan = false) : x = some a := by
  obtain ⟨b, hb, rfl | rfl⟩ := h.from_before ha
  · exact hb
  · cases ho

/-- An access of the SRU that is not a status write stays until it is performed. -/
theorem sru_stays (h : Serves p q x y) {a : PortAccess} (ha : x = some a) (ho : a.owner = .part .sru) (hp : ¬p (.part .sru))
    (hq : q ≠ some .status) : y = some a := by
  cases h with
  | same => exact ha
  | @abandoned d r hd hdo hr =>
    rw [ha] at hd
    cases hd
    rw [ho] at hdo
    cases hdo
    exact absurd (hr rfl) hq
  | performed hd hpd =>
    rw [ha] at hd
    cases hd
    exact absurd (ho ▸ hpd) hp

end Serves

theorem serves_orphanOf {p : Owner → Prop} {q : Option SruAccess} {s : State} {r : Requester} (hr : r = .sru → q = some .status) :
    Serves p q s.port.busy (orphanOf s r).port.busy := by
  unfold orphanOf
  split
  · next hh =>
    rcases hb : s.port.busy with _ | b
    · simp [holdsPort, hb] at hh
    · have hown : b.owner = .part r := by simpa [holdsPort, hb] using hh
      simp only [State.withPort_port, Option.map_some]
      exact .abandoned rfl hown hr
  · exact .same

theorem orphaned_orphan (s : State) (a : PortAccess) : (orphaned s a).orphan = true := by
  unfold orphaned
  split
  · split <;> rfl
  · rfl

theorem masterReset_busy {s : State} {k : ResetCause} {a : PortAccess} (h : (masterReset s k).port.busy = some a) :
    ∃ b, s.port.busy = some b ∧ a = orphaned s b := by
  obtain ⟨b, hb, rfl⟩ := Option.map_eq_some_iff.mp (show s.port.busy.map (orphaned s) = some a from h)
  exact ⟨b, hb, rfl⟩

theorem serves_hltFrame {p : Owner → Prop} {q : Option SruAccess} {x : Option PortAccess} {s : State} (hx : s.port.busy = x) (k : Head) :
    Serves p q x (hltFrame s k).port.busy := by
  subst hx
  have h1 : Serves p q s.port.busy (loadInject (loadRoute (orphanOf (s.withHead k (s.hlt.get k).close) (.hlt k)) k) k).port.busy := by
    rw [(writes_loadInject _ k).port (by simp), (writes_loadRoute _ k).port (by simp)]
    exact serves_orphanOf (s := s.withHead k (s.hlt.get k).close) (nomatch ·)
  unfold hltFrame
  dsimp only
  split
  · exact h1
  · rwa [(writes_sendFrame _ k).port (by simp), (writes_judgeLag _ k).port (by simp)]

theorem serves_takeSnapshot {p : Owner → Prop} {q : Option SruAccess} {x : Option PortAccess} {s : State} (hx : s.port.busy = x)
    (hq : s.sru.request = q) : Serves p q x (takeSnapshot s).port.busy := by
  subst hx
  unfold takeSnapshot
  dsimp only
  split
  · next hr => exact serves_orphanOf fun _ => hq ▸ hr.1
  · exact .same

theorem serves_startRunReset {p : Owner → Prop} {q : Option SruAccess} (s : State) (late : Bool) :
    Serves p q s.port.busy (startRunReset s late).port.busy := by
  rw [(writes_startRunReset_shares s late).port (by simp)]
  exact serves_orphanOf (s := s) (r := .rwk) (nomatch ·)

theorem readingHead_spec {s : State} {k : Head} {a : PortAccess} (h : readingHead s = some (k, a)) :
    s.port.busy = some a ∧ a.owner = .part (.hlt k) := by
  unfold readingHead at h
  repeat' split at h
  all_goals simp_all

/-- Short of a master reset a command does no more with the access in progress than perform it or leave it without its requester. -/
theorem acts_serves {c : Instr} {b : Bool} {s u : State} (h : Acts s c b u) (hc : ¬mayReset c) :
    Serves (performs c) s.sru.request s.port.busy u.port.busy := by
  have hw := acts_writes h
  have hf (f : Ftu) : (s.withFtu f).port.busy = s.port.busy := rfl
  have row {k : Head} {a : PortAccess} {v : State} (hr : readingHead s = some (k, a)) (hv : v.port.busy = none) :
      Serves (performs .rowReadDone) s.sru.request s.port.busy v.port.busy := by
    obtain ⟨h1, h2⟩ := readingHead_spec hr
    exact hv ▸ .performed h1 ⟨k, h2⟩
  cases h with
  | powerOn | masterReset | initialisation | resetPinRise => exact absurd trivial hc
  | hltFrame k => exact serves_hltFrame (hf _) k
  | statusSnapshot => exact serves_takeSnapshot (hf _) rfl
  | @runReset late _ _ rest => exact serves_startRunReset (afterHandover s rest) late
  | runResetIgnored => exact .same
  | rowReadDone hr | rowReadLeft hr => exact row hr rfl
  | walkReadDone hb => exact .of_free hb rfl (by simp; rfl)
  | walkReadLeft hb | processorWriteLeft hb | processorReadLeft hb | sruWriteDone hb | sruWriteLeft hb | releaseWriteLeft hb
  | guardReadDone hb | guardReadLeft hb => exact .of_free hb rfl rfl
  | processorWriteDone hb =>
    exact .of_free hb rfl (by rw [(writes_completeCarried _).port (by simp), (writes_watchers _ _ _ _).port (by simp)]; rfl)
  | processorReadDone hb => exact .of_free hb rfl (by rw [(writes_completeCarried _).port (by simp)]; rfl)
  | processorReadWithdrawn hb => exact .of_free hb rfl (by rw [(writes_completeCarried _).port (by simp)]; rfl)
  | releaseWriteDone hb _ _ h2 =>
    subst h2
    exact .of_free hb rfl (by simp [staleMark]; rfl)
  | _ => exact .of_eq (by rw [hw.port (by simp)])

/-! ## What the arbiter may grant -/

theorem partAccess_clearFairness (s : State) (r : Requester) : partAccess (clearFairness s) r = partAccess s r := by
  unfold clearFairness
  split
  · rfl
  · cases r <;> rfl

theorem processorWaits_clearFairness (s : State) : processorWaits (clearFairness s) = processorWaits s := by
  unfold clearFairness
  split
  · rfl
  · rfl

/-- The access the arbiter grants the processor (R173). -/
def processorAccess (c : Carried) : PortAccess :=
  ⟨.processor, c.acc.write, c.acc.ha.toNat, if c.acc.write then c.lanes else 0b1111, c.acc.data, false⟩

theorem grantPart_busy {s : State} {a : PortAccess} (h : (grantPart s).port.busy = some a) :
    s.port.busy = some a ∨ ∃ r, partAccess s r = some a ∧ partWaits s r = true := by
  unfold grantPart at h
  split at h
  · exact .inl h
  · next r hr =>
    split at h
    · exact .inl h
    · next b hb =>
      refine .inr ⟨r, ?_, List.find?_some hr⟩
      dsimp only at h
      split at h <;> exact hb.trans h

/-- An access in progress after the arbiter has acted was in progress before, or the port was free and it is a waiting one
(R173). -/
theorem arbitrate_busy {u : State} {a : PortAccess} (h : (arbitrate u).port.busy = some a) :
    u.port.busy = some a ∨ (u.port.busy = none ∧ u.ptp.handovers = [] ∧
      ((∃ r, partAccess (requestSru u) r = some a ∧ (arbitrate u).ptp = u.ptp) ∨
        ∃ c, processorWaits (requestSru u) = some c ∧ a = processorAccess c ∧
          (arbitrate u).ptp.carried = some { c with stage := .onPort } ∧ (arbitrate u).sru = (requestSru u).sru)) := by
  unfold arbitrate at h ⊢
  rcases grant_cases (clearFairness (requestSru u)) with hg | ⟨hb, hh, hg | ⟨c, hc, hg⟩⟩
  · left
    simpa [hg] using h
  · have hb' : u.port.busy = none := by simpa using hb
    have hh' : u.ptp.handovers = [] := by simpa using hh
    rw [hg] at h
    rcases grantPart_busy h with h' | ⟨r, hr, -⟩
    · rw [hb] at h'
      cases h'
    · rw [partAccess_clearFairness] at hr
      exact .inr ⟨hb', hh', .inl ⟨r, hr, by simp [hg]⟩⟩
  · have hb' : u.port.busy = none := by simpa using hb
    have hh' : u.ptp.handovers = [] := by simpa using hh
    rw [hg] at h
    rw [processorWaits_clearFairness] at hc
    refine .inr ⟨hb', hh', .inr ⟨c, hc, ?_, by simp [hg, grantProcessor], by simp [hg]⟩⟩
    cases h
    rfl

theorem ehuAccess_spec {s : State} {a : PortAccess} (h : ehuAccess s = some a) :
    (∃ n, a = partRead .ehu (entryAddr n 1) ∧ s.rst.phase = .windows) ∨
      ∃ e ∈ s.ehu.queue, a = ⟨.part .ehu, true, e.wa, e.mask, e.data, false⟩ := by
  unfold ehuAccess at h
  split at h
  · next hp =>
    cases h
    exact .inl ⟨_, rfl, hp.1⟩
  · split at h
    · cases h
    · next e he =>
      cases h
      exact .inr ⟨e, List.mem_of_find?_eq_some he, rfl⟩

theorem sruAccess_spec {s : State} {a : PortAccess} (h : sruAccess s = some a) : ∃ wa data, a = partWrite .sru wa data := by
  unfold sruAccess at h
  repeat' split at h
  all_goals cases h
  all_goals exact ⟨_, _, rfl⟩

/-- A part access is its requester's, for itself. -/
theorem partAccess_owner {s : State} {r : Requester} {a : PortAccess} (h : partAccess s r = some a) :
    a.owner = .part r ∧ a.orphan = false := by
  cases r with
  | sru =>
    obtain ⟨wa, data, rfl⟩ := sruAccess_spec h
    exact ⟨rfl, rfl⟩
  | ehu =>
    rcases ehuAccess_spec h with ⟨n, rfl, -⟩ | ⟨e, -, rfl⟩ <;> exact ⟨rfl, rfl⟩
  | hlt k =>
    obtain ⟨b, -, rfl⟩ := Option.map_eq_some_iff.mp h
    exact ⟨rfl, rfl⟩
  | rwk =>
    obtain ⟨b, -, rfl⟩ := Option.map_eq_some_iff.mp h
    exact ⟨rfl, rfl⟩

end Sys2Proof.Machine

/-! The processor access carried: what each command makes of it (R42, R169, R173). -/

namespace Sys2Proof.Machine

open Sys2Proof.Config

/-- What may become of the processor access carried: it waits, is granted the port, waits for a spill and is decided afresh, is
withdrawn, completes and ends, and an access may be taken (R42, R169, R173, R175). -/
inductive Carries (x : Option Carried) : Option Carried → Prop
  | refl : Carries x x
  | ended : Carries x none
  | complete {k} (h : Carries x (some k)) : Carries x (some { k with stage := .complete })
  | withdrawn {k} (h : Carries x (some k)) : Carries x (some { k with withdrawn := true })
  | retry {k b} (h : Carries x (some k)) (hs : k.stage = .spill b) : Carries x (some { k with stage := .spill true })
  | granted {k} (h : Carries x (some k)) (hs : k.stage = .waiting) : Carries x (some { k with stage := .onPort })
  | taken {a : Access} (lanes : Lanes) (w : Bool) (h : a.write = true → lanes ≠ 0 → processorMayWrite a.ha.toNat) :
      Carries x (some ⟨a, lanes, if a.write = true ∧ lanes = 0 then .complete else .waiting, w⟩)
  | spilt {a : Access} (w : Bool) (h : a.write = true ∧ windowOf a.ha.toNat = .line) : Carries x (some ⟨a, 0, .spill false, w⟩)

namespace Carries

theorem trans {x y z : Option Carried} (h : Carries x y) (h' : Carries y z) : Carries x z := by
  induction h' with
  | refl => exact h
  | ended => exact .ended
  | complete _ ih => exact ih.complete
  | withdrawn _ ih => exact ih.withdrawn
  | retry _ hs ih => exact ih.retry hs
  | granted _ hs ih => exact ih.granted hs
  | taken lanes w hm => exact .taken lanes w hm
  | spilt w hl => exact .spilt w hl

theorem of_eq {x y : Option Carried} (h : y = x) : Carries x y := h ▸ .refl

theorem completed (x : Option Carried) : Carries x (x.map fun k => { k with stage := .complete }) := by
  cases x with
  | none => exact .refl
  | some k => exact .complete .refl

theorem performed (x : Ptp) : Carries x.carried x.releasePerformed.carried := by
  unfold Ptp.releasePerformed
  cases x.carried with
  | none => exact .refl
  | some k =>
    dsimp only [Option.map_some]
    split
    · next hs => exact .retry .refl hs
    · exact .refl

end Carries

/-! ## The operations of the processor side -/

theorem carries_endWithdrawn {x : Option Carried} {s : State} (h : Carries x s.ptp.carried) :
    Carries x (endWithdrawn s).ptp.carried := by
  refine h.trans ?_
  unfold endWithdrawn
  split
  · split
    · exact .ended
    · exact .refl
  · exact .refl

theorem carries_completeCarried {x : Option Carried} {s : State} (h : Carries x s.ptp.carried) :
    Carries x (completeCarried s).ptp.carried := carries_endWithdrawn (h.trans (.completed _))

theorem carries_hcsHigh (s : State) : Carries s.ptp.carried (hcsHigh s).ptp.carried := by
  unfold hcsHigh
  split
  · exact .refl
  · next k hk =>
    split
    · exact .ended
    · split
      · exact .refl
      · exact .withdrawn (.of_eq hk.symm)

theorem carries_decideWrite (s : State) {a : Access} (w : Bool) (ha : a.write = true) (hline : windowOf a.ha.toNat = .line) :
    Carries s.ptp.carried (decideWrite s a w).ptp.carried := by
  have hm : processorMayWrite a.ha.toNat := .inl (by rw [hline]; decide)
  unfold decideWrite
  dsimp only
  split
  · exact .taken _ _ fun _ _ => hm
  · split
    · exact .taken _ _ fun _ _ => hm
    · exact .taken _ _ fun _ _ => hm
    · exact .spilt w ⟨ha, hline⟩
    · exact .taken _ _ fun _ _ => hm

theorem carries_takeAccess (s : State) (a : Access) : Carries s.ptp.carried (takeAccess s a).ptp.carried := by
  unfold takeAccess
  split
  · next ha =>
    split
    · next h => exact .taken _ _ fun _ _ => .inl (by rw [h]; decide)
    · next h => exact .taken _ _ fun _ _ => .inl (by rw [h]; decide)
    · split
      · next h => exact .taken _ _ fun _ _ => .inr h
      · exact .taken _ _ fun _ h => absurd rfl h
    · next h => exact .taken _ _ fun _ _ => .inl (by rw [h]; decide)
    · next h =>
      refine Carries.trans (.of_eq ?_) (carries_decideWrite (structureSeen s a) false ha h)
      rw [(writes_structureSeen s a).ptp (by simp)]
  · next ha => exact .taken _ _ fun h => absurd h ha

theorem carries_takePresented (s : State) : Carries s.ptp.carried (takePresented s).ptp.carried := by
  rcases takePresented_cases s with ⟨h, -⟩ | ⟨a, -, -, h⟩ <;> rw [h]
  · exact .refl
  · exact carries_takeAccess (s.withPtp { s.ptp with presented := none }) a

theorem carries_arbitrate (s : State) : Carries s.ptp.carried (arbitrate s).ptp.carried := by
  rcases (arbitrate_ptp s).2 with h | ⟨k, hk, hs, h⟩
  · exact .of_eq h
  · rw [h, hk]
    exact .granted .refl hs

/-! ## The commands -/

/-- Short of a master reset, a command does with the access carried what the processor side does. -/
theorem acts_carries {c : Instr} {b : Bool} {s u : State} (h : Acts s c b u) (hc : ¬mayReset c)
    (hline : ∀ k, s.ptp.carried = some k → k.stage = .spill true → k.acc.write = true ∧ windowOf k.acc.ha.toNat = .line) :
    Carries s.ptp.carried u.ptp.carried := by
  have same {bs : List Block} {v w : State} (h : Writes bs v w) (hb : Block.ptp ∉ bs) : Carries v.ptp.carried w.ptp.carried :=
    .of_eq (by rw [h.ptp hb])
  have taken {bs : List Block} {rest : List Handover} {w : State} (h : Writes bs (afterHandover s rest) w) (hb : Block.ptp ∉ bs) :
      Carries s.ptp.carried w.ptp.carried := .of_eq (by rw [h.ptp hb]; rfl)
  have hw := acts_writes h
  cases h with
  | powerOn | masterReset | initialisation | resetPinRise => exact absurd trivial hc
  | structureWrite | contentWrite | commitWrite | droppedWrite | accessPresented | runResetIgnored => exact .refl
  | spillRetry hk hs =>
    obtain ⟨ha, hl⟩ := hline _ hk hs
    exact carries_endWithdrawn (carries_decideWrite s _ ha hl)
  | processorWriteDone =>
    refine carries_completeCarried (.of_eq ?_)
    unfold watchers
    dsimp only
    rw [State.withPtp_ptp]
    split
    · rw [(writes_staleMark _ _).ptp (by simp), (writes_guardUpdate _ _ _ _).ptp (by simp)]; rfl
    · rw [(writes_guardUpdate _ _ _ _).ptp (by simp)]; rfl
  | processorWriteLeft | processorReadLeft => exact .refl
  | processorReadDone => exact carries_completeCarried .refl
  | processorReadWithdrawn => exact carries_completeCarried .refl
  | accessWithdrawn | hcsRises => exact carries_hcsHigh s
  | releaseWriteDone _ _ _ h2 =>
    subst h2
    refine Carries.trans (.of_eq ?_) (Carries.performed _)
    rw [nearFullTest_ptp, (writes_staleMark _ _).ptp (by simp)]
    rfl
  | releaseWriteLeft => exact .refl
  | attentionRead => exact taken (writes_withSru _ _) (by simp)
  | consumeWrite => exact taken (writes_withSru _ _) (by simp)
  | runReset => exact taken (writes_startRunReset _ _) (by simp)
  | settingWrite => exact taken (writes_takePlainSetting _ _ _ _) (by simp)
  | guardBandWrite => exact taken (writes_takeGuardBand _ _ _) (by simp)
  | nearFullThresholdWrite => exact taken (writes_takeNearFull _ _ _) (by simp)
  | helmModeWrite => exact taken (writes_takeHelmMode _ _ _) (by simp)
  | levelWrite => exact taken (writes_takeLevel _ _ _ _) (by simp)
  | autoEnableWrite => exact taken (writes_takeAutoEnable _ _ _) (by simp)
  | claimantSettingWrite => exact taken (writes_takeClaimantSetting _ _ _ _ _) (by simp)
  | routeWrite => exact taken (writes_takeRoute _ _ _ _ _) (by simp)
  | cardWrite => exact taken (writes_cardStale _ _ _) (by simp)
  | attentionMaskWrite => exact taken (writes_takeMask _ _ _) (by simp)
  | interruptEnableWrite => exact taken (writes_takeIntEnable _ _ _) (by simp)
  | _ => exact same hw (by simp)

end Sys2Proof.Machine

/-! The script memory, the hold queue and the release in progress (R34, R38, R42). -/

namespace Sys2Proof.Machine

open Sys2Proof.Config

/-! ## The script memory -/

/-- The owner whose write at the port a command performs (R38, R170, R203). -/
def writeOwner : Instr → Option Owner
  | .processorWriteDone => some .processor
  | .sruWriteDone => some (.part .sru)
  | .releaseWriteDone => some (.part .ehu)
  | _ => none

/-- A write at the port has been performed: its bytes reach memory, a release with those its entry has in the queue (R38, R172). -/
def WritePerformed (c : Instr) (s : State) (m : Memory) : Prop :=
  ∃ a, s.port.busy = some a ∧ a.write = true ∧ writeOwner c = some a.owner ∧
    (m = writeWord s.mem a.wa a.lanes a.data ∨
      ∃ e, s.ehu.queue.find? (fun e => e.wa == a.wa) = some e ∧ m = writeWord s.mem e.wa e.mask e.data)

theorem masterReset_mem (s : State) (k : ResetCause) : (masterReset s k).mem = s.mem := rfl

/-- Memory changes by a write performed at the port, and by nothing else (R172). -/
theorem acts_mem {c : Instr} {b : Bool} {s u : State} (h : Acts s c b u) : u.mem = s.mem ∨ WritePerformed c s u.mem := by
  by_cases hc : mayReset c
  · obtain ⟨v, rfl | ⟨k, rfl⟩, hw, -⟩ := acts_mayReset h hc
    · exact .inl (hw.mem (by simp))
    · exact .inl ((hw.mem (by simp)).trans (masterReset_mem s k))
  have plain {a : PortAccess} {o : Owner} (hb : inProgress s o true = some a) (ho : writeOwner c = some o)
      {m : Memory} (hm : m = writeWord s.mem a.wa a.lanes a.data) : WritePerformed c s m := by
    obtain ⟨h1, h2, h3⟩ := inProgress_eq_some hb
    exact ⟨a, h1, h3, h2 ▸ ho, .inl hm⟩
  have hw := acts_writes h
  cases h with
  | powerOn | masterReset | initialisation | resetPinRise => exact absurd trivial hc
  | processorWriteDone hb =>
    refine .inr (plain hb rfl ?_)
    rw [(writes_completeCarried _).mem (by simp), (writes_watchers _ _ _ _).mem (by simp)]
    rfl
  | processorWriteLeft hb => exact .inr (plain hb rfl rfl)
  | sruWriteDone hb => exact .inr (plain hb rfl rfl)
  | sruWriteLeft hb => exact .inr (plain hb rfl rfl)
  | releaseWriteDone hb ho he h2 =>
    obtain ⟨h1, h3, h4⟩ := inProgress_eq_some hb
    subst h2
    refine .inr ⟨_, h1, h4, h3 ▸ rfl, .inr ⟨_, he, ?_⟩⟩
    rw [State.withSru_mem, State.withPtp_mem, nearFullTest_mem, (writes_staleMark _ _).mem (by simp)]
    rfl
  | releaseWriteLeft hb ho => exact .inr (plain hb rfl rfl)
  | _ => exact .inl (hw.mem (by simp))

theorem takePresented_mem (s : State) : (takePresented s).mem = s.mem := (writes_takePresented s).mem (by simp)

theorem memOk_exec {c : Instr} {s t : State} (h : MemOk s) (he : exec c s = .next t) : MemOk t := by
  refine kept_by_exec h (fun b u hu => ?_) (fun u hu => ?_) (fun u hu => ?_) he
  · unfold MemOk at h ⊢
    rcases acts_mem hu with hm | ⟨a, -, -, -, hm | ⟨e, -, hm⟩⟩ <;> rw [hm]
    · exact h
    · exact writeWord_wf _ _ _ h
    · exact writeWord_wf _ _ _ h
  · rwa [MemOk, takePresented_mem]
  · rwa [MemOk, arbitrate_mem]

/-! ## The hold queue -/

/-- A queue as R34 gives it. -/
def QueueOk (q : List HoldEntry) : Prop := q.length ≤ holdCapacity ∧ (q.map (·.wa)).Nodup ∧ ∀ e ∈ q, entryOk e

/-- The access that waits for a spill is a write to the line store (R42). -/
def SpillOk (x : Option Carried) : Prop :=
  ∀ c ∈ x, ∀ b, c.stage = .spill b → c.acc.write = true ∧ windowOf c.acc.ha.toNat = .line

theorem holdOk_iff (s : State) : HoldOk s ↔ QueueOk s.ehu.queue ∧ SpillOk s.ptp.carried := by
  simp only [HoldOk, QueueOk, SpillOk, and_assoc]

/-- Changing entries in place keeps the queue in form when their words stay and they stay as R34 gives them. -/
theorem QueueOk.map {q : List HoldEntry} (h : QueueOk q) (f : HoldEntry → HoldEntry) (hw : ∀ e, (f e).wa = e.wa)
    (hf : ∀ e, entryOk e → entryOk (f e)) : QueueOk (q.map f) := by
  obtain ⟨h1, h2, h3⟩ := h
  refine ⟨by simpa using h1, ?_, ?_⟩
  · rw [List.map_map, show (fun e : HoldEntry => e.wa) ∘ f = fun e => e.wa from funext hw]
    exact h2
  · simp only [List.mem_map]
    rintro _ ⟨e, he, rfl⟩
    exact hf e (h3 e he)

theorem lanes_or_ne_zero {a b : Lanes} (h : a ≠ 0) : a ||| b ≠ 0 := by
  revert a b
  decide

theorem lanes_or_within {a b m : Lanes} (ha : a &&& ~~~m = 0) (hb : b &&& ~~~m = 0) : (a ||| b) &&& ~~~m = 0 := by
  revert a b m
  decide

theorem Edited.queueOk {p : Prop} {q r : List HoldEntry} (h : Edited p q r) (hq : QueueOk q) : QueueOk r := by
  induction h with
  | refl => exact hq
  | restate _ f ih => exact ih.map _ (fun _ => rfl) fun e he => he
  | join _ _ wa data hl ih =>
    refine ih.map _ (fun e => by split <;> rfl) fun e he => ?_
    obtain ⟨h1, h2, h3, h4, h5⟩ := he
    split
    · next hw => exact ⟨h1, h2, h3, lanes_or_ne_zero h4, lanes_or_within h5 (hw ▸ hl)⟩
    · exact ⟨h1, h2, h3, h4, h5⟩
  | @make r _ _ e he hn hr ih =>
    obtain ⟨h1, h2, h3⟩ := ih
    refine ⟨by simpa using hr, ?_, ?_⟩
    · rw [List.map_append, List.map_singleton]
      refine h2.append (List.nodup_singleton _) (List.disjoint_singleton.mpr fun hm => ?_)
      obtain ⟨x, hx, hxe⟩ := List.mem_map.mp hm
      exact hn x hx hxe
    · simp only [List.mem_append, List.mem_singleton]
      rintro x (hx | rfl)
      · exact h3 x hx
      · exact he

theorem QueueOk.filter {q : List HoldEntry} (h : QueueOk q) (p : HoldEntry → Bool) : QueueOk (q.filter p) := by
  obtain ⟨h1, h2, h3⟩ := h
  exact ⟨(List.length_filter_le _ _).trans h1, h2.sublist ((List.filter_sublist).map _), fun e he => h3 e (List.mem_of_mem_filter he)⟩

theorem queueOk_nil : QueueOk [] := ⟨Nat.zero_le _, List.nodup_nil, fun _ h => nomatch h⟩

theorem Carries.spillOk {x y : Option Carried} (h : Carries x y) (hx : SpillOk x) : SpillOk y := by
  induction h with
  | refl => exact hx
  | ended => exact fun _ h => nomatch h
  | complete => rintro _ ⟨⟩ _ hs; cases hs
  | @withdrawn k _ ih => rintro _ ⟨⟩ b hs; exact ih k rfl b hs
  | @retry k _ _ hs ih => rintro _ ⟨⟩ _ _; exact ih k rfl _ hs
  | granted => rintro _ ⟨⟩ _ hs; cases hs
  | taken =>
    rintro _ ⟨⟩ b hs
    dsimp only at hs
    split at hs <;> cases hs
  | spilt w hl => rintro _ ⟨⟩ _ _; exact hl

theorem SpillOk.retry {x : Option Carried} (h : SpillOk x) :
    ∀ k, x = some k → k.stage = .spill true → k.acc.write = true ∧ windowOf k.acc.ha.toNat = .line :=
  fun k hk hs => h k hk true hs

/-- The queue a release performed leaves: its entry is gone (R38). -/
theorem acts_release_queue {b : Bool} {s u : State} (h : Acts s .releaseWriteDone b u) :
    ∃ a, inProgress s (.part .ehu) true = some a ∧ u.port.busy = none ∧
      ((u.ehu.queue = s.ehu.queue ∧ (a.orphan = true ∨ s.ehu.queue.find? (fun e => e.wa == a.wa) = none)) ∨
        (u.ehu.queue = s.ehu.queue.filter (fun e => e.wa != a.wa) ∧ a.orphan = false)) := by
  cases h with
  | releaseWriteDone hb ho _ h2 =>
    subst h2
    refine ⟨_, hb, by simp [staleMark]; rfl, .inr ⟨?_, ho⟩⟩
    rw [State.withSru_ehu, State.withPtp_ehu, nearFullTest_queue, (writes_staleMark _ _).ehu (by simp)]
    rfl
  | releaseWriteLeft hb ho => exact ⟨_, hb, rfl, .inl ⟨rfl, ho⟩⟩

theorem queueOk_acts {c : Instr} {b : Bool} {s u : State} (h : HoldOk s) (ha : Acts s c b u) (hc : ¬mayReset c) :
    QueueOk u.ehu.queue := by
  obtain ⟨hq, hs⟩ := (holdOk_iff s).mp h
  by_cases hr : c = .releaseWriteDone
  · subst hr
    obtain ⟨a, -, -, ⟨hu, -⟩ | ⟨hu, -⟩⟩ := acts_release_queue ha <;> rw [hu]
    · exact hq
    · exact hq.filter _
  · exact (acts_edited ha hc hr fun k hk hst => (hs.retry k hk hst).2).queueOk hq

theorem holdOk_masterReset (s : State) (k : ResetCause) : HoldOk (masterReset s k) :=
  (holdOk_iff _).mpr ⟨queueOk_nil, fun _ h => nomatch h⟩

theorem HoldOk.congr {s u : State} (h : HoldOk s) (hq : u.ehu = s.ehu) (hp : u.ptp = s.ptp) : HoldOk u := by
  unfold HoldOk
  rw [hq, hp]
  exact h

theorem holdOk_acts {c : Instr} {b : Bool} {s u : State} (h : HoldOk s) (ha : Acts s c b u) : HoldOk u := by
  by_cases hc : mayReset c
  · obtain ⟨v, rfl | ⟨k, rfl⟩, hw, -⟩ := acts_mayReset ha hc
    · exact h.congr (hw.ehu (by simp)) (hw.ptp (by simp))
    · exact (holdOk_masterReset s k).congr (hw.ehu (by simp)) (hw.ptp (by simp))
  · obtain ⟨-, hs⟩ := (holdOk_iff s).mp h
    exact (holdOk_iff u).mpr ⟨queueOk_acts h ha hc, (acts_carries ha hc hs.retry).spillOk hs⟩

theorem holdOk_takePresented {u : State} (h : HoldOk u) : HoldOk (takePresented u) := by
  obtain ⟨hq, hs⟩ := (holdOk_iff u).mp h
  exact (holdOk_iff _).mpr ⟨(edited_takePresented u).queueOk hq, (carries_takePresented u).spillOk hs⟩

theorem holdOk_arbitrate {u : State} (h : HoldOk u) : HoldOk (arbitrate u) := by
  obtain ⟨hq, hs⟩ := (holdOk_iff u).mp h
  exact (holdOk_iff _).mpr ⟨by rwa [arbitrate_ehu], (carries_arbitrate u).spillOk hs⟩

theorem holdOk_exec {c : Instr} {s t : State} (h : HoldOk s) (he : exec c s = .next t) : HoldOk t :=
  kept_by_exec h (fun _ _ hu => holdOk_acts h hu) (fun _ hu => holdOk_takePresented hu) (fun _ hu => holdOk_arbitrate hu) he

/-! ## The release in progress -/

theorem Edited.keeps_word {p : Prop} {q r : List HoldEntry} (h : Edited p q r) {wa : Nat} (hq : ∃ e ∈ q, e.wa = wa) :
    ∃ e ∈ r, e.wa = wa := by
  induction h with
  | refl => exact hq
  | restate _ f ih =>
    obtain ⟨e, he, hw⟩ := ih
    exact ⟨_, List.mem_map_of_mem he, hw⟩
  | join _ _ k data _ ih =>
    obtain ⟨e, he, hw⟩ := ih
    refine ⟨_, List.mem_map_of_mem he, ?_⟩
    split <;> exact hw
  | make _ _ _ _ _ ih =>
    obtain ⟨e, he, hw⟩ := ih
    exact ⟨e, List.mem_append_left _ he, hw⟩

/-- A release in progress stays that of an entry where the queue keeps its words. -/
theorem ReleaseOk.served {s u : State} (h : ReleaseOk s) {p : Owner → Prop} {q : Option SruAccess}
    (hp : Serves p q s.port.busy u.port.busy)
    (hq : ∀ wa, (∃ e ∈ s.ehu.queue, e.wa = wa) → ∃ e ∈ u.ehu.queue, e.wa = wa) : ReleaseOk u :=
  fun a ha ho hw hn => hq a.wa (h a (hp.own ha hn) ho hw hn)

theorem releaseOk_masterReset (s : State) (k : ResetCause) : ReleaseOk (masterReset s k) := by
  intro a ha _ _ hn
  obtain ⟨b, -, rfl⟩ := masterReset_busy ha
  rw [orphaned_orphan] at hn
  cases hn

theorem releaseOk_arbitrate {u : State} (h : ReleaseOk u) : ReleaseOk (arbitrate u) := by
  intro a ha ho hw hn
  rw [arbitrate_ehu]
  rcases arbitrate_busy ha with hb | ⟨-, -, ⟨r, hr, -⟩ | ⟨k, -, rfl, -⟩⟩
  · exact h a hb ho hw hn
  · have hr' : r = .ehu := by
      have := (partAccess_owner hr).1
      rw [ho] at this
      cases this
      rfl
    subst hr'
    rcases ehuAccess_spec hr with ⟨n, rfl, -⟩ | ⟨e, he, rfl⟩
    · cases hw
    · exact ⟨e, by simpa using he, rfl⟩
  · cases ho

theorem releaseOk_exec {c : Instr} {s t : State} (hh : HoldOk s) (h : ReleaseOk s) (he : exec c s = .next t) : ReleaseOk t := by
  refine kept_by_exec_reset h (releaseOk_masterReset s)
    (fun v u hv hw => hv.served (p := performs c) (q := none) (.of_eq (by rw [hw.port (by simp)])) fun wa hq => by rwa [hw.ehu (by simp)])
    (fun b u hu hc => ?_) (fun u hu => ?_) (fun u hu => releaseOk_arbitrate hu) he
  · by_cases hr : c = .releaseWriteDone
    · subst hr
      obtain ⟨-, -, hn, -⟩ := acts_release_queue hu
      intro a ha
      rw [hn] at ha
      cases ha
    · obtain ⟨-, hs⟩ := (holdOk_iff s).mp hh
      exact h.served (acts_serves hu hc) fun _ => (acts_edited hu hc hr fun k hk hst => (hs.retry k hk hst).2).keeps_word
  · exact hu.served (p := performs c) (q := none) (.of_eq (by rw [(writes_takePresented u).port (by simp)])) fun _ => (edited_takePresented u).keeps_word

/-- Settles O31. -/
theorem memoryAndHoldInvariant : Obligations.MemoryAndHoldInvariant :=
  ⟨fun _ _ _ h he => memOk_exec h he, fun _ _ _ h he => holdOk_exec h he, fun _ _ _ hh h he => releaseOk_exec hh h he⟩

end Sys2Proof.Machine

/-! The port and what waits for it: who may reach which words, and the fairness count (R173 to R175, R193, R196). -/

namespace Sys2Proof.Machine

open Sys2Proof.Config

/-! ## The access carried -/

/-- A processor write that waits or is at the port stays out of the report window but for the consume index (R175). -/
def MayWrite (x : Option Carried) : Prop :=
  ∀ c ∈ x, c.acc.write = true → (c.stage = .waiting ∨ c.stage = .onPort) → processorMayWrite c.acc.ha.toNat

theorem Carries.mayWrite {x y : Option Carried} (h : Carries x y) (hx : MayWrite x) : MayWrite y := by
  induction h with
  | refl => exact hx
  | ended => exact fun _ h => nomatch h
  | complete => rintro _ ⟨⟩ _ (hs | hs) <;> cases hs
  | @withdrawn k _ ih => rintro _ ⟨⟩ hw hs; exact ih k rfl hw hs
  | retry => rintro _ ⟨⟩ _ (hs | hs) <;> cases hs
  | @granted k _ hs ih => rintro _ ⟨⟩ hw _; exact ih k rfl hw (.inl hs)
  | taken lanes w h =>
    rintro _ ⟨⟩ hw hs
    refine h hw fun hl => ?_
    subst hl
    dsimp only at hw hs
    rw [if_pos ⟨hw, rfl⟩] at hs
    rcases hs with hs | hs <;> cases hs
  | spilt => rintro _ ⟨⟩ _ (hs | hs) <;> cases hs

/-! ## The words the SRU writes -/

theorem performed_request (x : Sru) (k : SruAccess) : (x.performed k).request = none := by
  cases k with
  | record => unfold Sru.performed; dsimp only; split <;> rfl
  | _ => rfl

/-- A command leaves the SRU's request; or it leaves none, a status write given up or the SRU's own write performed (R196, R203). -/
theorem Reported.request {p : Prop} {x y : Sru} (h : Reported p x y) :
    y.request = x.request ∨ (y.request = none ∧ (p ∨ x.request = some .status)) := by
  induction h with
  | refl => exact .inl rfl
  | noRequest _ hr ih =>
    rcases ih with h | ⟨h, -⟩
    · exact .inr ⟨rfl, .inr (h ▸ hr)⟩
    · rw [hr] at h
      cases h
  | performed _ hp => exact .inr ⟨performed_request _ _, .inl hp⟩
  | _ => assumption

/-- The word of the status block that is written next (R196). -/
def StatusIn (x : Sru) : Prop := ∀ w ∈ x.status, w.next < statusWords

theorem statusIn_performed {x : Sru} (h : StatusIn x) (k : SruAccess) : StatusIn (x.performed k) := by
  cases k with
  | status =>
    intro w hw
    obtain ⟨v, -, hv⟩ := Option.bind_eq_some_iff.mp (show x.status.bind _ = some w from hw)
    split at hv
    · next hn => cases hv; exact hn
    · cases hv
  | record =>
    unfold Sru.performed
    dsimp only
    split <;> exact h
  | _ => exact h

theorem Reported.statusIn {p : Prop} {x y : Sru} (h : Reported p x y) (hx : StatusIn x) : StatusIn y := by
  induction h with
  | status _ words => rintro _ ⟨⟩; exact Nat.zero_lt_succ _
  | performed _ _ _ ih => exact statusIn_performed ih _
  | _ => assumption

/-- The window word that initialisation writes next lies in the windows while its write is requested (R193). -/
def InitWordIn (s : State) : Prop := s.sru.request = some .initWord → s.rst.initWord < 2048

theorem initWordIn_masterReset (s : State) (k : ResetCause) : InitWordIn (masterReset s k) := fun h => by cases h

theorem InitWordIn.congr {s u : State} (h : InitWordIn s) (hr : u.sru.request = s.sru.request ∨ u.sru.request = none)
    (hi : u.rst.initWord = s.rst.initWord ∨ u.rst.initWord = 0) : InitWordIn u := by
  intro hu
  rcases hr with hr | hr <;> rw [hr] at hu
  · rcases hi with hi | hi <;> rw [hi]
    · exact h hu
    · decide
  · cases hu

theorem initWordIn_acts {c : Instr} {b : Bool} {s u : State} (h : InitWordIn s) (ha : Acts s c b u) : InitWordIn u := by
  by_cases hc : mayReset c
  · obtain ⟨v, hv, hw, hi⟩ := acts_mayReset ha hc
    have hrv : InitWordIn v := by
      rcases hv with rfl | ⟨k, rfl⟩
      · exact h
      · exact initWordIn_masterReset s k
    exact hrv.congr (.inl (hw.sru (by simp)).request) (hi.imp And.right And.right)
  · have hr := (acts_reported ha hc).request.imp_right And.left
    have hw := acts_writes ha
    cases ha with
    | powerOn | masterReset | initialisation | resetPinRise => exact absurd trivial hc
    | powerGood => exact h.congr hr ((initIfReady_rst (s.withRst _)).imp (fun h => by rw [h]; rfl) And.right)
    | resetPinFall | initWalkStart | initEnd | guardReadDone => exact h.congr hr (.inl rfl)
    | sruWriteDone => exact fun hq => absurd hq (by simp [performed_request])
    | guardReadLeft | sruWriteLeft => exact h
    | _ => exact h.congr hr (.inl (by rw [hw.rst (by simp)]))

theorem sruNext_initWord {s : State} (h : sruNext s = some .initWord) : s.rst.phase = .windows ∧ s.rst.initWord < 2048 := by
  unfold sruNext at h
  split at h
  · cases h
  · next hp =>
    split at h
    · next hi => exact ⟨hp, hi⟩
    · cases h
  · split at h <;> cases h
  · cases h
  · repeat' split at h
    all_goals cases h

theorem initWordIn_arbitrate {u : State} (h : InitWordIn u) : InitWordIn (arbitrate u) := by
  intro hq
  rw [arbitrate_rst]
  rcases arbitrate_request u with hr | hr <;> rw [hr] at hq
  · exact h hq
  · exact (sruNext_initWord hq).2

/-! ## The access in progress -/

theorem accessOk_orphan {a : PortAccess} (h : accessOk a) : accessOk { a with orphan := true } := h

theorem accessOk_orphaned {s : State} (hq : QueueOk s.ehu.queue) {a : PortAccess} (h : accessOk a) : accessOk (orphaned s a) := by
  unfold orphaned
  split
  · next hown =>
    split
    · next e he =>
      obtain ⟨-, -, -, -, hm⟩ := hq.2.2 e (List.mem_of_find?_eq_some he)
      have hwa : e.wa = a.wa := by simpa using List.find?_some he
      simp only [accessOk, hown.1, hown.2.1, forall_const] at h ⊢
      exact ⟨h.1, hwa ▸ hm⟩
    · exact accessOk_orphan h
  · exact accessOk_orphan h

theorem sruAccess_ok {s : State} (hi : InitWordIn s) (hs : StatusIn s.sru) {a : PortAccess} (h : sruAccess s = some a) : accessOk a := by
  unfold sruAccess at h
  split at h
  · cases h
  · next hr =>
    cases h
    exact ⟨rfl, hi hr⟩
  · split at h
    · cases h
    · split at h
      · next r _ _ hw =>
        cases h
        refine ⟨rfl, ?_⟩
        have := Nat.mod_lt r.num.toNat (show 0 < ringRecords by decide)
        simp only [partWrite, ringBase, rundownBase, ringRecords] at this ⊢
        omega
      · cases h
        exact ⟨rfl, show produceWord < rundownBase by decide⟩
  · cases h
    exact ⟨rfl, show attentionWord < rundownBase by decide⟩
  · cases h
    exact ⟨rfl, by decide⟩
  · split at h
    · cases h
    · next w hw =>
      cases h
      refine ⟨rfl, ?_⟩
      have := hs w hw
      simp only [partWrite, reportBase, rundownBase, statusWords] at this ⊢
      omega

theorem partAccess_ok {s : State} (hi : InitWordIn s) (hs : StatusIn s.sru) (hq : QueueOk s.ehu.queue) {r : Requester} {a : PortAccess}
    (h : partAccess s r = some a) : accessOk a := by
  cases r with
  | sru => exact sruAccess_ok hi hs h
  | ehu =>
    rcases ehuAccess_spec h with ⟨n, rfl, -⟩ | ⟨e, he, rfl⟩
    · exact (nomatch ·)
    · obtain ⟨h1, -, -, -, h5⟩ := hq.2.2 e he
      exact fun _ => ⟨h1, h5⟩
  | hlt k =>
    obtain ⟨b, -, rfl⟩ := Option.map_eq_some_iff.mp h
    exact rfl
  | rwk =>
    obtain ⟨b, -, rfl⟩ := Option.map_eq_some_iff.mp h
    exact rfl

theorem portOk_iff (s : State) : PortOk s ↔ (∀ a ∈ s.port.busy, accessOk a) ∧ MayWrite s.ptp.carried ∧ InitWordIn s ∧ StatusIn s.sru :=
  Iff.rfl

theorem Serves.accessOk {p : Owner → Prop} {q : Option SruAccess} {x y : Option PortAccess} (h : Serves p q x y)
    (hx : ∀ a ∈ x, Machine.accessOk a) : ∀ a ∈ y, Machine.accessOk a := by
  intro a ha
  obtain ⟨b, hb, rfl | rfl⟩ := h.from_before ha
  · exact hx _ hb
  · exact accessOk_orphan (hx b hb)

theorem portOk_acts {c : Instr} {b : Bool} {s u : State} (hh : HoldOk s) (h : PortOk s) (ha : Acts s c b u) : PortOk u := by
  obtain ⟨h1, h2, h3, h4⟩ := (portOk_iff s).mp h
  obtain ⟨hq, hs⟩ := (holdOk_iff s).mp hh
  refine (portOk_iff u).mpr ?_
  by_cases hc : mayReset c
  · obtain ⟨v, rfl | ⟨k, rfl⟩, hw, -⟩ := acts_mayReset ha hc
    · exact ⟨by rwa [hw.port (by simp)], by rwa [hw.ptp (by simp)], initWordIn_acts h3 ha, (hw.reported (p := False) (by simp)).statusIn h4⟩
    · refine ⟨?_, ?_, initWordIn_acts h3 ha, (hw.reported (p := False) (by simp)).statusIn fun _ h => nomatch h⟩
      · rw [hw.port (by simp)]
        intro a hm
        obtain ⟨d, hd, rfl⟩ := masterReset_busy hm
        exact accessOk_orphaned hq (h1 d hd)
      · rw [hw.ptp (by simp)]
        exact fun _ h => nomatch h
  · exact ⟨(acts_serves ha hc).accessOk h1, (acts_carries ha hc hs.retry).mayWrite h2, initWordIn_acts h3 ha,
      (acts_reported ha hc).statusIn h4⟩

theorem portOk_takePresented {u : State} (h : PortOk u) : PortOk (takePresented u) := by
  obtain ⟨h1, h2, h3, h4⟩ := (portOk_iff u).mp h
  have hw := writes_takePresented u
  have hr := hw.reported (p := False) (by simp)
  refine (portOk_iff _).mpr ⟨by rwa [hw.port (by simp)], (carries_takePresented u).mayWrite h2, ?_, hr.statusIn h4⟩
  exact h3.congr (hr.request.imp_right And.left) (.inl (by rw [hw.rst (by simp)]))

theorem initWordIn_requestSru {u : State} (h : InitWordIn u) : InitWordIn (requestSru u) := by
  unfold requestSru
  split
  · exact fun hq => (sruNext_initWord hq).2
  · exact h

/-- What the arbiter grants is an access its owner may make. -/
theorem accessOk_arbitrate {u : State} (hq : QueueOk u.ehu.queue) (h : PortOk u) : ∀ a ∈ (arbitrate u).port.busy, accessOk a := by
  obtain ⟨h1, h2, h3, h4⟩ := (portOk_iff u).mp h
  intro a ha
  rcases arbitrate_busy ha with hb | ⟨-, -, ⟨r, hr, -⟩ | ⟨k, hk, rfl, -⟩⟩
  · exact h1 a hb
  · exact partAccess_ok (initWordIn_requestSru h3) (by rwa [StatusIn, requestSru_sru_status]) (by rwa [requestSru_ehu]) hr
  · obtain ⟨hk1, hk2⟩ := processorWaits_spec hk
    rw [requestSru_ptp] at hk1
    exact fun hw => h2 k hk1 hw (.inl hk2)

theorem portOk_arbitrate {u : State} (hq : QueueOk u.ehu.queue) (h : PortOk u) : PortOk (arbitrate u) := by
  obtain ⟨h1, h2, h3, h4⟩ := (portOk_iff u).mp h
  exact (portOk_iff _).mpr ⟨accessOk_arbitrate hq h, (carries_arbitrate u).mayWrite h2, initWordIn_arbitrate h3,
    by rwa [StatusIn, arbitrate_sru_status]⟩

/-! ## Every command -/

theorem portOk_exec {c : Instr} {s t : State} (hh : HoldOk s) (h : PortOk s) (he : exec c s = .next t) : PortOk t := by
  refine (kept_by_exec (P := fun u => HoldOk u ∧ PortOk u) ⟨hh, h⟩ (fun b u hu => ⟨holdOk_acts hh hu, portOk_acts hh h hu⟩)
    (fun u hu => ⟨holdOk_takePresented hu.1, portOk_takePresented hu.2⟩)
    (fun u hu => ⟨holdOk_arbitrate hu.1, portOk_arbitrate ((holdOk_iff u).mp hu.1).1 hu.2⟩) he).2

/-! ## The fairness count -/

theorem fairnessOk_grantPart {s : State} (h : FairnessOk s) : FairnessOk (grantPart s) := by
  unfold grantPart
  split
  · exact h
  · split
    · exact h
    · dsimp only
      split <;> exact Nat.zero_le _

theorem fairnessOk_clearFairness {s : State} (h : FairnessOk s) : FairnessOk (clearFairness s) := by
  unfold clearFairness
  split
  · exact h
  · exact Nat.zero_le _

theorem fairnessOk_grant {s : State} (h : FairnessOk s) : FairnessOk (grant s) := by
  unfold grant
  split
  · exact h
  · split
    · exact fairnessOk_grantPart h
    · next hn =>
      split
      · next k hk =>
        unfold FairnessOk grantProcessor
        dsimp only [State.withPtp_port, State.withPort_port]
        split
        · next hp =>
          have : ¬fairnessLimit ≤ s.port.fairness := by simpa [hp] using hn
          omega
        · exact h
      · exact fairnessOk_grantPart h

theorem FairnessOk.congr {s u : State} (h : FairnessOk s) (hp : u.port.fairness = s.port.fairness) : FairnessOk u := by
  rwa [FairnessOk, hp]

theorem orphanOf_fairness (s : State) (r : Requester) : (orphanOf s r).port.fairness = s.port.fairness := by
  unfold orphanOf
  split <;> rfl

theorem fairnessOk_arbitrate {u : State} (h : FairnessOk u) : FairnessOk (arbitrate u) :=
  fairnessOk_grant (fairnessOk_clearFairness (h.congr (by rw [requestSru_port])))

/-- No command changes the fairness count but a master reset and the arbiter (R173). -/
theorem acts_fairness {c : Instr} {b : Bool} {s u : State} (h : Acts s c b u) (hc : ¬mayReset c) :
    u.port.fairness = s.port.fairness := by
  have hw := acts_writes h
  have of {v : State} (hv : v.port = (freePort s).port) : v.port.fairness = s.port.fairness := by rw [hv]; rfl
  cases h with
  | powerOn | masterReset | initialisation | resetPinRise => exact absurd trivial hc
  | hltFrame k =>
    have h1 (v : State) : (loadInject (loadRoute (orphanOf (v.withHead k (v.hlt.get k).close) (.hlt k)) k) k).port.fairness =
        v.port.fairness := by
      rw [(writes_loadInject _ k).port (by simp), (writes_loadRoute _ k).port (by simp), orphanOf_fairness]
      rfl
    unfold hltFrame
    dsimp only
    split
    · exact h1 _
    · rw [(writes_sendFrame _ k).port (by simp), (writes_judgeLag _ k).port (by simp)]
      exact h1 _
  | statusSnapshot =>
    unfold takeSnapshot
    dsimp only
    split
    · exact orphanOf_fairness _ _
    · rfl
  | @runReset late _ _ rest =>
    rw [(writes_startRunReset_shares _ late).port (by simp)]
    exact orphanOf_fairness (afterHandover s rest) .rwk
  | runResetIgnored | rowReadDone | rowReadLeft | walkReadLeft | processorWriteLeft | processorReadLeft | sruWriteDone
  | sruWriteLeft | releaseWriteLeft | guardReadDone | guardReadLeft => rfl
  | walkReadDone => exact of (by simp)
  | processorWriteDone => exact of (by rw [(writes_completeCarried _).port (by simp), (writes_watchers _ _ _ _).port (by simp)]; rfl)
  | processorReadDone => exact of (by rw [(writes_completeCarried _).port (by simp)]; rfl)
  | processorReadWithdrawn => exact of (by rw [(writes_completeCarried _).port (by simp)])
  | releaseWriteDone _ _ _ h2 =>
    subst h2
    exact of (by simp [staleMark])
  | _ => rw [hw.port (by simp)]

theorem fairnessOk_exec {c : Instr} {s t : State} (h : FairnessOk s) (he : exec c s = .next t) : FairnessOk t :=
  kept_by_exec_reset h (fun _ => Nat.zero_le _) (fun _ _ hv hw => hv.congr (by rw [hw.port (by simp)]))
    (fun _ _ hu hc => h.congr (acts_fairness hu hc)) (fun u hu => hu.congr (by rw [(writes_takePresented u).port (by simp)]))
    (fun _ hu => fairnessOk_arbitrate hu) he

/-- Settles O52. -/
theorem portInvariant : Obligations.PortInvariant := ⟨fun _ _ _ hh h he => portOk_exec hh h he, fun _ _ _ h he => fairnessOk_exec h he⟩

end Sys2Proof.Machine

/-! What the processor reads of the script (R37, R38, R171). -/

namespace Sys2Proof.Machine

open Sys2Proof.Config

/-! ## Words and their lanes -/

theorem laneOf_wordOf_zero (b0 b1 b2 b3 : Byte) : laneOf (wordOf b0 b1 b2 b3) 0 = b0 := by
  apply BitVec.eq_of_getLsbD_eq
  intro i hi
  simp [laneOf, wordOf, hi]

theorem laneOf_wordOf_one (b0 b1 b2 b3 : Byte) : laneOf (wordOf b0 b1 b2 b3) 1 = b1 := by
  apply BitVec.eq_of_getLsbD_eq
  intro i hi
  simp [laneOf, wordOf, hi, show 8 + i < 16 by omega, show 8 + i < 24 by omega, show 8 + i < 32 by omega]

theorem laneOf_wordOf_two (b0 b1 b2 b3 : Byte) : laneOf (wordOf b0 b1 b2 b3) 2 = b2 := by
  apply BitVec.eq_of_getLsbD_eq
  intro i hi
  simp [laneOf, wordOf, hi, show 16 + i < 24 by omega, show 16 + i < 32 by omega, show ¬16 + i < 8 by omega,
    show 16 + i - 8 = i + 8 by omega,
    BitVec.getLsbD_of_ge b0 (16 + i) (by omega)]

theorem laneOf_wordOf_three (b0 b1 b2 b3 : Byte) : laneOf (wordOf b0 b1 b2 b3) 3 = b3 := by
  apply BitVec.eq_of_getLsbD_eq
  intro i hi
  simp [laneOf, wordOf, hi, show 24 + i < 32 by omega, show ¬24 + i < 8 by omega, show 24 + i - 8 = i + 16 by omega,
    show 24 + i - 16 = i + 8 by omega, BitVec.getLsbD_of_ge b0 (24 + i) (by omega)]

theorem wordOf_laneOf (w : Word) : wordOf (laneOf w 0) (laneOf w 1) (laneOf w 2) (laneOf w 3) = w := by
  apply BitVec.eq_of_getLsbD_eq
  intro i hi
  have hc : i < 8 ∨ (8 ≤ i ∧ i < 16) ∨ (16 ≤ i ∧ i < 24) ∨ (24 ≤ i ∧ i < 32) := by omega
  simp only [laneOf, wordOf, BitVec.getLsbD_or, BitVec.getLsbD_shiftLeft, BitVec.getLsbD_setWidth, BitVec.getLsbD_ushiftRight]
  grind

theorem readWord_writeWord_ne {m : Memory} (h : m.wf = true) {wa k : Nat} (hk : k ≠ wa) (lanes : Lanes) (data : Word) :
    readWord (writeWord m wa lanes data) k = readWord m k := by
  have byte (i : Nat) (hi : i < 4) : readByte (writeWord m wa lanes data) (4 * k + i) = readByte m (4 * k + i) := by
    rw [readByte_writeWord wa lanes data _ h, if_neg]
    rintro ⟨hw, -⟩
    omega
  have byte0 : readByte (writeWord m wa lanes data) (4 * k) = readByte m (4 * k) := byte 0 (by decide)
  rw [readWord, readWord, byte0, byte 1 (by decide), byte 2 (by decide), byte 3 (by decide)]

theorem readWord_writeWord_same {m : Memory} (h : m.wf = true) (wa : Nat) (lanes : Lanes) (data : Word) :
    readWord (writeWord m wa lanes data) wa = mergeLanes lanes data (readWord m wa) := by
  have byte (i : Nat) (hi : i < 4) : readByte (writeWord m wa lanes data) (4 * wa + i) =
      if lanes.getLsbD i = true then laneOf data i else readByte m (4 * wa + i) := by
    rw [readByte_writeWord wa lanes data _ h, show (4 * wa + i) / 4 = wa by omega, show (4 * wa + i) % 4 = i by omega]
    simp
  unfold mergeLanes
  dsimp only
  rw [readWord, byte 1 (by decide), byte 2 (by decide), byte 3 (by decide), show 4 * wa = 4 * wa + 0 from rfl, byte 0 (by decide)]
  simp only [readWord, laneOf_wordOf_zero, laneOf_wordOf_one, laneOf_wordOf_two, laneOf_wordOf_three, Nat.add_zero]

theorem mergeLanes_full (new old : Word) : mergeLanes 0b1111 new old = new := wordOf_laneOf new

/-! ## The word a read returns -/

theorem overlay_eq_of_find {q r : List HoldEntry} {wa : Nat} (w : Word)
    (h : (r.find? fun e => e.wa == wa).map (fun e => (e.mask, e.data)) = (q.find? fun e => e.wa == wa).map fun e => (e.mask, e.data)) :
    overlay r wa w = overlay q wa w := by
  unfold overlay
  generalize r.find? (fun e => e.wa == wa) = x at h
  generalize q.find? (fun e => e.wa == wa) = y at h
  cases x <;> cases y <;> simp_all

/-- Entries that change their state alone show the processor what they did before (R37). -/
theorem Edited.overlay {q r : List HoldEntry} (h : Edited False q r) (wa : Nat) (w : Word) : overlay r wa w = overlay q wa w := by
  induction h with
  | refl => rfl
  | @restate r _ f ih =>
    rw [← ih]
    refine overlay_eq_of_find w ?_
    rw [List.find?_map, Option.map_map]
    rfl
  | join _ hp => exact hp.elim
  | make _ hp => exact hp.elim

theorem overlay_none {q : List HoldEntry} {wa : Nat} {w : Word} (h : ∀ e ∈ q, e.wa ≠ wa) : overlay q wa w = w := by
  unfold overlay
  rw [List.find?_eq_none.mpr fun e he => by simpa using h e he]

theorem overlay_filter_ne {q : List HoldEntry} {wa k : Nat} (h : k ≠ wa) (w : Word) :
    overlay (q.filter fun e => e.wa != wa) k w = overlay q k w := by
  refine overlay_eq_of_find w ?_
  rw [List.find?_filter]
  congr 1
  congr 1
  funext e
  by_cases he : e.wa = k
  · simp [he, h]
  · simp [he]

/-- A release brings to memory what the processor saw already: its word and every other read as before (R37, R38). -/
theorem view_released {m : Memory} (hm : m.wf = true) {q : List HoldEntry} {wa : Nat} {e : HoldEntry}
    (he : q.find? (fun e => e.wa == wa) = some e) (k : Nat) :
    overlay (q.filter fun e => e.wa != wa) k (readWord (writeWord m e.wa e.mask e.data) k) = overlay q k (readWord m k) := by
  have hw : e.wa = wa := by simpa using List.find?_some he
  by_cases hk : k = wa
  · subst hk
    rw [overlay_none (by simp), hw, readWord_writeWord_same hm, overlay, he]
  · rw [overlay_filter_ne hk, readWord_writeWord_ne hm (by rwa [hw])]

theorem processorView_congr {s t : State} (hm : t.mem = s.mem) (hq : t.ehu = s.ehu) (wa : Nat) :
    processorView t wa = processorView s wa := by
  rw [processorView, processorView, hm, hq]

theorem processorsOwn_of_mayReset {c : Instr} (h : mayReset c) : processorsOwn c := by
  cases c with
  | powerOn | masterReset | initialisation | resetPinRise => trivial
  | _ => exact h.elim

/-- What a command of the part's own lets be taken, it lets be taken of what stood presented before (R169). -/
theorem acts_presented {c : Instr} {s u : State} (h : Acts s c true u) (hc : ¬processorsOwn c) :
    takesStanding c ∧ u.ptp.presented = s.ptp.presented := by
  have taken {bs : List Block} {rest : List Handover} {w : State} (h : Writes bs (afterHandover s rest) w) (hb : Block.ptp ∉ bs) :
      w.ptp.presented = s.ptp.presented := by rw [h.ptp hb]; rfl
  have done (v : State) : (completeCarried v).ptp.presented = v.ptp.presented := by
    unfold completeCarried endWithdrawn
    repeat' split
    all_goals rfl
  cases h with
  | initEnd | structureWrite | contentWrite | commitWrite | droppedWrite | accessPresented | spillRetry | processorWriteDone
  | accessWithdrawn | hcsRises => exact absurd trivial hc
  | processorReadDone => exact ⟨trivial, done _⟩
  | processorReadWithdrawn => exact ⟨trivial, done _⟩
  | attentionRead => exact ⟨trivial, taken (writes_withSru _ _) (by simp)⟩
  | consumeWrite => exact ⟨trivial, taken (writes_withSru _ _) (by simp)⟩
  | runReset => exact ⟨trivial, taken (writes_startRunReset _ _) (by simp)⟩
  | runResetIgnored => exact ⟨trivial, rfl⟩
  | settingWrite => exact ⟨trivial, taken (writes_takePlainSetting _ _ _ _) (by simp)⟩
  | guardBandWrite => exact ⟨trivial, taken (writes_takeGuardBand _ _ _) (by simp)⟩
  | nearFullThresholdWrite => exact ⟨trivial, taken (writes_takeNearFull _ _ _) (by simp)⟩
  | helmModeWrite => exact ⟨trivial, taken (writes_takeHelmMode _ _ _) (by simp)⟩
  | levelWrite => exact ⟨trivial, taken (writes_takeLevel _ _ _ _) (by simp)⟩
  | autoEnableWrite => exact ⟨trivial, taken (writes_takeAutoEnable _ _ _) (by simp)⟩
  | claimantSettingWrite => exact ⟨trivial, taken (writes_takeClaimantSetting _ _ _ _ _) (by simp)⟩
  | routeWrite => exact ⟨trivial, taken (writes_takeRoute _ _ _ _ _) (by simp)⟩
  | cardWrite => exact ⟨trivial, taken (writes_cardStale _ _ _) (by simp)⟩
  | attentionMaskWrite => exact ⟨trivial, taken (writes_takeMask _ _ _) (by simp)⟩
  | interruptEnableWrite => exact ⟨trivial, taken (writes_takeIntEnable _ _ _) (by simp)⟩

/-- Before the arbiter acts, a command of the part's own leaves the processor's view of the script. -/
theorem acts_view {c : Instr} {b : Bool} {s u : State} (h : Acts s c b u) (hc : ¬processorsOwn c) (hm : MemOk s) (hh : HoldOk s) (hp : PortOk s)
    (hr : ReleaseOk s) (hown : ∀ a ∈ s.port.busy, a.owner = .part .ehu → a.write = true → a.orphan = false) {wa : Nat}
    (hwa : rundownBase ≤ wa) : processorView u wa = processorView s wa := by
  have hreset : ¬mayReset c := fun hr => hc (processorsOwn_of_mayReset hr)
  by_cases hrel : c = .releaseWriteDone
  · subst hrel
    cases h with
    | releaseWriteDone hb _ he h2 =>
      subst h2
      have hview := view_released (k := wa) hm he
      have hmem (v : State) (k : Nat) : (nearFullTest (staleMark v k)).mem = v.mem := by
        rw [nearFullTest_mem, (writes_staleMark _ _).mem (by simp)]
      have hqueue (v : State) (k : Nat) : (nearFullTest (staleMark v k)).ehu.queue = v.ehu.queue := by
        rw [nearFullTest_queue, (writes_staleMark _ _).ehu (by simp)]
      rw [processorView, State.withSru_mem, State.withPtp_mem, State.withSru_ehu, State.withPtp_ehu, hmem, hqueue]
      exact hview
    | releaseWriteLeft hb ho =>
      obtain ⟨h1, h2, h3⟩ := inProgress_eq_some hb
      have horphan := hown _ h1 h2 h3
      obtain ⟨e, he, hw⟩ := hr _ h1 h2 h3 horphan
      rcases ho with ho | ho
      · rw [horphan] at ho; cases ho
      · exact absurd (by simpa using hw) (List.find?_eq_none.mp ho e he)
  · obtain ⟨-, hspill⟩ := (holdOk_iff s).mp hh
    have hedit : Edited False s.ehu.queue u.ehu.queue :=
      (acts_edited h hreset hrel fun k hk hs => (hspill.retry k hk hs).2).mono fun he => hc (he ▸ trivial)
    have hread : readWord u.mem wa = readWord s.mem wa := by
      rcases acts_mem h with hmem | ⟨a, ha, hw, ho, hmem⟩
      · rw [hmem]
      · have hsru : a.owner = .part .sru := by
          unfold writeOwner at ho
          split at ho
          · exact absurd trivial hc
          · exact (Option.some_inj.mp ho).symm
          · exact absurd rfl hrel
          · cases ho
        have hok := hp.1 a ha
        simp only [accessOk, hsru] at hok
        have hlow (e : HoldEntry) (he : s.ehu.queue.find? (fun e => e.wa == a.wa) = some e) : False := by
          obtain ⟨hline, -⟩ := hh.2.2.1 e (List.mem_of_find?_eq_some he)
          have hwa' : e.wa = a.wa := by simpa using List.find?_some he
          have : rundownBase ≤ lineBase := by decide
          omega
        rcases hmem with hmem | ⟨e, he, -⟩
        · rw [hmem, readWord_writeWord_ne hm (by omega)]
        · exact (hlow e he).elim
    rw [processorView, hread, hedit.overlay]
    rfl

/-- Settles O30. -/
theorem partKeepsProcessorView : Obligations.PartKeepsProcessorView := by
  intro c s t hc htake hm hh hp hr hown he wa hwa
  rcases exec_inv he with rfl | ⟨b, u, hu, rfl⟩
  · rfl
  rw [← acts_view hu hc hm hh hp hr hown hwa]
  cases b
  · exact processorView_congr (arbitrate_mem u) (arbitrate_ehu u) wa
  · obtain ⟨ht, hpres⟩ := acts_presented hu hc
    rw [finish, if_pos rfl, goOn_eq_arbitrate (.inr (hpres.trans (htake ht)))]
    exact processorView_congr (arbitrate_mem u) (arbitrate_ehu u) wa

end Sys2Proof.Machine

/-! The attention word in memory and the latch (R198 to R200, R203). -/

namespace Sys2Proof.Machine

open Sys2Proof.Config

theorem performed_latch (x : Sru) (k : SruAccess) : (x.performed k).attnReq = x.attnReq ∧ (x.performed k).latch = x.latch := by
  cases k with
  | record => unfold Sru.performed; dsimp only; split <;> exact ⟨rfl, rfl⟩
  | _ => exact ⟨rfl, rfl⟩

/-- With no attention write requested after a command, none was before it and the latch has not changed (R199, R200). -/
theorem Reported.latch {p : Prop} {x y : Sru} (h : Reported p x y) (hy : y.attnReq = false) : x.attnReq = false ∧ y.latch = x.latch := by
  induction h with
  | refl => exact ⟨hy, rfl⟩
  | accept _ e _ _ ih =>
    simp only [Sru.accept, Bool.or_eq_false_iff, bne_eq_false_iff_eq] at hy
    obtain ⟨h1, h2⟩ := ih hy.1
    exact ⟨h1, hy.2.trans h2⟩
  | @attention z _ w ih =>
    simp only [Sru.attentionRead, Bool.or_eq_false_iff, bne_eq_false_iff_eq] at hy
    obtain ⟨h1, h2⟩ := ih hy.1
    refine ⟨h1, Eq.trans ?_ h2⟩
    dsimp only [Sru.attentionRead]
    rw [hy.2, show ~~~(0 : BitVec 12) = BitVec.allOnes 12 by decide, BitVec.and_allOnes]
  | @performed z _ _ k _ ih =>
    obtain ⟨hr, hl⟩ := performed_latch z k
    rw [hr] at hy
    rw [hl]
    exact ih hy
  | set _ _ ih | status _ _ ih | noRequest _ _ ih | consume _ _ ih | resetLeft _ _ ih | start _ _ _ ih | late _ _ _ ih
  | shareTaken _ ih | finish _ _ _ ih => exact ih hy

/-- The attention write in progress carries the latch, unless another is requested (R199). -/
def CarriesLatch (s : State) : Prop :=
  ∀ a ∈ s.port.busy, a.owner = .part .sru → a.orphan = false → s.sru.request = some .attention →
    a.wa = attentionWord ∧ a.lanes = 0b1111 ∧ a.write = true ∧ (s.sru.attnReq = false → a.data = s.sru.latch.setWidth 32)

/-- What a reporting SRU shows in memory's attention word (R198, R199). -/
def ShowsLatch (s : State) : Prop :=
  s.sru.request ≠ some .initWord ∧
  (∀ a ∈ s.port.busy, a.write = true → a.wa = attentionWord → attentionInFlight s) ∧
  (s.sru.attnReq = false → ¬attentionInFlight s → readWord s.mem attentionWord = s.sru.latch.setWidth 32)

theorem attentionOk_iff (s : State) : AttentionOk s ↔ CarriesLatch s ∧ (reporting s → ShowsLatch s) := Iff.rfl

theorem attentionInFlight_congr {s u : State} (hp : u.port.busy = s.port.busy) (hr : u.sru.request = s.sru.request) :
    attentionInFlight u ↔ attentionInFlight s := by rw [attentionInFlight, attentionInFlight, hp, hr]

/-! ## What a command makes of it before the arbiter acts -/

theorem carriesLatch_acts {c : Instr} {b : Bool} {s u : State} (h : CarriesLatch s) (ha : Acts s c b u) (hc : ¬mayReset c) :
    CarriesLatch u := by
  intro a hm ho hn hq
  have hs := (acts_serves ha hc).own hm hn
  have hr := acts_reported ha hc
  have hreq : s.sru.request = some .attention := by
    rcases hr.request with h' | ⟨h', -⟩ <;> rw [h'] at hq
    · exact hq
    · cases hq
  obtain ⟨h1, h2, h3, h4⟩ := h a hs ho hn hreq
  refine ⟨h1, h2, h3, fun hu => ?_⟩
  obtain ⟨h5, h6⟩ := hr.latch hu
  rw [h6, h4 h5]

theorem rst_performed_phase {x : Rst} {k : SruAccess} {n : Nat} (h : (x.performed k n).phase = .ending ∨ (x.performed k n).phase = .running) :
    x.phase = .ending ∨ x.phase = .running ∨ k = .attention := by
  unfold Rst.performed at h
  split at h
  · next hp => simp [hp] at h
  · next hp =>
    split at h
    · simp [hp] at h
    · simp at h
  · exact .inr (.inr rfl)
  · exact or_assoc.mp (.inl h)

/-- A command brings the part to reporting by the first attention write, and by nothing else (R193). -/
theorem acts_reporting {c : Instr} {b : Bool} {s u : State} (h : Acts s c b u) (hc : ¬mayReset c) (hsru : c ≠ .sruWriteDone)
    (hr : reporting u) : reporting s := by
  have hw := acts_writes h
  unfold reporting at hr ⊢
  cases h with
  | powerOn | masterReset | initialisation | resetPinRise => exact absurd trivial hc
  | sruWriteDone | sruWriteLeft => exact absurd rfl hsru
  | powerGood =>
    rcases initIfReady_rst (s.withRst { s.rst with supplyGood := true }) with h | ⟨h, -⟩
    · rw [h] at hr
      exact hr
    · simp [h] at hr
  | resetPinFall | guardReadDone | guardReadLeft => exact hr
  | initWalkStart => simp at hr
  | initEnd now h => exact .inl h
  | _ => rwa [hw.rst (by simp)] at hr

/-- A write at the port that reaches the attention word is the attention write in progress. -/
def OnlyAttention (s : State) : Prop := ∀ a ∈ s.port.busy, a.write = true → a.wa = attentionWord → attentionInFlight s

theorem OnlyAttention.spec {s : State} (h : OnlyAttention s) {a : PortAccess} (hb : s.port.busy = some a) (hw : a.write = true)
    (hwa : a.wa = attentionWord) : s.sru.request = some .attention ∧ a.owner = .part .sru ∧ a.orphan = false := by
  obtain ⟨hq, d, hd, ho, hn⟩ := h a hb hw hwa
  have hd' : s.port.busy = some d := hd
  rw [hb] at hd'
  cases hd'
  exact ⟨hq, ho, hn⟩

/-- A write at the port of another word leaves memory's attention word. -/
theorem readWord_attention {c : Instr} {b : Bool} {s u : State} (hm : MemOk s) (ha : Acts s c b u)
    (hn : ∀ a, s.port.busy = some a → a.write = true → writeOwner c = some a.owner → a.wa ≠ attentionWord) :
    readWord u.mem attentionWord = readWord s.mem attentionWord := by
  rcases acts_mem ha with h | ⟨a, hb, hw, ho, h | ⟨e, he, h⟩⟩ <;> rw [h]
  · exact readWord_writeWord_ne hm (hn a hb hw ho).symm _ _
  · have hwa : e.wa = a.wa := by simpa using List.find?_some he
    exact readWord_writeWord_ne hm (by rw [hwa]; exact (hn a hb hw ho).symm) _ _

/-- A command other than a write of the SRU performed keeps the attention write in progress. -/
theorem inFlight_acts {c : Instr} {b : Bool} {s u : State} (ha : Acts s c b u) (hc : ¬mayReset c) (hsru : c ≠ .sruWriteDone)
    (h : attentionInFlight s) : attentionInFlight u := by
  obtain ⟨hq, a, hb, ho, hn⟩ := h
  have hnp : ¬performs c (.part .sru) := by
    unfold performs
    split <;> simp_all
  refine ⟨?_, a, (acts_serves ha hc).sru_stays hb ho hnp (by simp [hq]), ho, hn⟩
  rcases (acts_reported ha hc).request with h' | ⟨-, h' | h'⟩
  · rw [h', hq]
  · exact absurd h' hsru
  · rw [hq] at h'
    cases h'

theorem showsLatch_acts {c : Instr} {b : Bool} {s u : State} (h : ShowsLatch s) (hm : MemOk s) (ha : Acts s c b u) (hc : ¬mayReset c)
    (hsru : c ≠ .sruWriteDone) : ShowsLatch u := by
  obtain ⟨h1, h2, h3⟩ := h
  have h2' : OnlyAttention s := h2
  have hr := acts_reported ha hc
  refine ⟨?_, fun a hb hw hwa => ?_, fun hq hn => ?_⟩
  · rcases hr.request with h' | ⟨h', -⟩ <;> rw [h']
    · exact h1
    · simp
  · obtain ⟨d, hd, had⟩ := (acts_serves ha hc).from_before hb
    have hd' : d.write = true ∧ d.wa = attentionWord := by
      rcases had with rfl | rfl
      · exact ⟨hw, hwa⟩
      · exact ⟨hw, hwa⟩
    exact inFlight_acts ha hc hsru (h2 d hd hd'.1 hd'.2)
  · obtain ⟨h5, h6⟩ := hr.latch hq
    have hns : ¬attentionInFlight s := fun hf => hn (inFlight_acts ha hc hsru hf)
    rw [readWord_attention hm ha fun a hb hw ho hwa => hns (h2 a hb hw hwa), h6, h3 h5 hns]

/-- A write of the SRU performed in a reporting part, or the first attention write, leaves memory's attention word the latch. -/
theorem showsLatch_sruWriteDone {b : Bool} {s u : State} (hcl : CarriesLatch s) (hsl : reporting s → ShowsLatch s) (hm : MemOk s)
    (ha : Acts s .sruWriteDone b u) (hr : reporting u) : ShowsLatch u := by
  have hrep := acts_reported ha (fun h => h)
  cases ha with
  | @sruWriteDone a k hb ho hk =>
    obtain ⟨hbusy, hown, hw⟩ := inProgress_eq_some hb
    refine ⟨by simp [performed_request], (fun _ h => by cases h), fun hq _ => ?_⟩
    obtain ⟨hq', hl⟩ := hrep.latch hq
    rw [hl]
    by_cases hka : k = .attention
    · subst hka
      obtain ⟨hwa, hlanes, -, hdata⟩ := hcl a hbusy hown ho hk
      rw [State.withSru_mem, State.withRst_mem, State.withMem_mem, hwa, hlanes, readWord_writeWord_same hm, mergeLanes_full,
        hdata hq']
    · have hrs : reporting s := by
        rcases rst_performed_phase hr with h | h | h
        · exact .inl h
        · exact .inr h
        · exact absurd h hka
      obtain ⟨-, h2, h3⟩ := hsl hrs
      have hne : a.wa ≠ attentionWord := fun hwa => by
        obtain ⟨hatt, -, -⟩ := OnlyAttention.spec h2 hbusy hw hwa
        rw [hk] at hatt
        cases hatt
        exact hka rfl
      have hns : ¬attentionInFlight s := fun hf => by
        obtain ⟨hatt, -⟩ := hf
        rw [hk] at hatt
        cases hatt
        exact hka rfl
      rw [← h3 hq' hns]
      exact readWord_writeWord_ne hm hne.symm _ _
  | @sruWriteLeft a hb ho =>
    obtain ⟨hbusy, hown, hw⟩ := inProgress_eq_some hb
    obtain ⟨h1, h2, h3⟩ := hsl hr
    have hns : ¬attentionInFlight s := by
      rintro ⟨hatt, d, hd, -, hdo⟩
      have hd' : s.port.busy = some d := hd
      rw [hbusy] at hd'
      cases hd'
      rcases ho with ho | ho
      · rw [hdo] at ho; cases ho
      · rw [ho] at hatt; cases hatt
    refine ⟨h1, (fun _ h => by cases h), fun hq _ => ?_⟩
    exact (readWord_writeWord_ne hm (fun hwa => hns (h2 a hbusy hw hwa.symm)) _ _).trans (h3 hq hns)

/-- What changes the port and memory in nothing and raises events alone keeps the attention word right. -/
theorem AttentionOk.raised {s u : State} (h : AttentionOk s) (hm : u.mem = s.mem) (hp : u.port = s.port) (hs : Raised s.sru u.sru)
    (hr : reporting u → reporting s) : AttentionOk u := by
  obtain ⟨h1, h2⟩ := (attentionOk_iff s).mp h
  have hflight : attentionInFlight u ↔ attentionInFlight s := attentionInFlight_congr (by rw [hp]) hs.request
  have hlatch : u.sru.attnReq = false → s.sru.attnReq = false ∧ u.sru.latch = s.sru.latch :=
    (Reported.of_raised (p := False) hs).latch
  refine (attentionOk_iff u).mpr ⟨fun a hb ho hn hq => ?_, fun hu => ?_⟩
  · rw [hp] at hb
    rw [hs.request] at hq
    obtain ⟨h3, h4, h5, h6⟩ := h1 a hb ho hn hq
    refine ⟨h3, h4, h5, fun ha => ?_⟩
    obtain ⟨h7, h8⟩ := hlatch ha
    rw [h8, h6 h7]
  · obtain ⟨h3, h4, h5⟩ := h2 (hr hu)
    refine ⟨by rwa [hs.request], fun a hb hw hwa => ?_, fun hq hn => ?_⟩
    · rw [hp] at hb
      exact hflight.mpr (h4 a hb hw hwa)
    · obtain ⟨h7, h8⟩ := hlatch hq
      rw [hm, h8, h5 h7 fun hf => hn (hflight.mpr hf)]

theorem attentionOk_acts {c : Instr} {b : Bool} {s u : State} (h : AttentionOk s) (hm : MemOk s) (ha : Acts s c b u) : AttentionOk u := by
  obtain ⟨h1, h2⟩ := (attentionOk_iff s).mp h
  by_cases hc : mayReset c
  · obtain ⟨v, hv, hw, hphase⟩ := acts_mayReset ha hc
    have hmem := hw.mem (by simp)
    have hport := hw.port (by simp)
    have hrep (hu : reporting u) : reporting v := by
      unfold reporting at hu ⊢
      rcases hphase with ⟨hp, -⟩ | ⟨hp, -⟩ <;> rw [hp] at hu
      · exact hu
      · simp at hu
    rcases hv with rfl | ⟨k, rfl⟩
    · exact h.raised hmem hport (hw.sru (by simp)) hrep
    · refine (attentionOk_iff u).mpr ⟨fun a hb ho hn => ?_, fun hu => ?_⟩
      · rw [hport] at hb
        obtain ⟨d, -, rfl⟩ := masterReset_busy hb
        rw [orphaned_orphan] at hn
        cases hn
      · rcases hrep hu with h | h <;> cases h
  · refine (attentionOk_iff u).mpr ⟨carriesLatch_acts h1 ha hc, fun hr => ?_⟩
    by_cases hsru : c = .sruWriteDone
    · subst hsru
      exact showsLatch_sruWriteDone h1 h2 hm ha hr
    · exact showsLatch_acts (h2 (acts_reporting ha hc hsru hr)) hm ha hc hsru

theorem attentionOk_takePresented {u : State} (h : AttentionOk u) : AttentionOk (takePresented u) := by
  have hw := writes_takePresented u
  refine h.raised (hw.mem (by simp)) (hw.port (by simp)) (hw.sru (by simp)) fun hr => ?_
  unfold reporting at hr ⊢
  rwa [hw.rst (by simp)] at hr

/-! ## What the arbiter makes of it -/

/-- While the SRU's own access is at the port the arbiter does nothing at the SRU (R173, R203). -/
theorem arbitrate_sru_holding {u : State} {a : PortAccess} (hb : u.port.busy = some a) (ho : a.owner = .part .sru) :
    (arbitrate u).sru = u.sru ∧ (arbitrate u).port.busy = some a := by
  have hr : requestSru u = u := by
    unfold requestSru
    rw [if_neg (by simp [holdsPort, hb, ho])]
  unfold arbitrate
  rcases grant_cases (clearFairness (requestSru u)) with hg | ⟨hn, -⟩
  · rw [hg, hr]
    simp [hb]
  · rw [hr, clearFairness_port_busy, hb] at hn
    cases hn

theorem arbitrate_inFlight {u : State} (h : attentionInFlight u) : attentionInFlight (arbitrate u) := by
  obtain ⟨hq, a, hb, ho, hn⟩ := h
  obtain ⟨h1, h2⟩ := arbitrate_sru_holding hb ho
  exact ⟨by rw [h1]; exact hq, a, h2, ho, hn⟩

theorem grantPart_attnReq (s : State) : (grantPart s).sru.attnReq = s.sru.attnReq ∨ attentionInFlight (grantPart s) := by
  unfold grantPart
  split
  · exact .inl rfl
  · next r _ =>
    split
    · exact .inl rfl
    · next a ha =>
      dsimp only
      split
      · next hr =>
        obtain ⟨ho, hn⟩ := partAccess_owner ha
        exact .inr ⟨hr.2, a, rfl, hr.1 ▸ ho, hn⟩
      · exact .inl rfl

/-- The arbiter takes the request of an attention write only with its grant (R199). -/
theorem arbitrate_attnReq (u : State) : (arbitrate u).sru.attnReq = u.sru.attnReq ∨ attentionInFlight (arbitrate u) := by
  unfold arbitrate
  rcases grant_cases (clearFairness (requestSru u)) with hg | ⟨-, -, hg | ⟨k, -, hg⟩⟩ <;> rw [hg]
  · exact .inl (by simp)
  · refine (grantPart_attnReq _).imp_left fun h => ?_
    rw [h]
    simp
  · exact .inl (by simp)

theorem sruAccess_attention {s : State} (hq : s.sru.request = some .attention) {a : PortAccess} (h : sruAccess s = some a) :
    a = partWrite .sru attentionWord (s.sru.latch.setWidth 32) := by
  rw [sruAccess, hq] at h
  cases h
  rfl

/-- Only its attention write brings the SRU to the attention word, once the windows have been written (R182, R203). -/
theorem sruAccess_attentionWord {s : State} (hs : StatusIn s.sru) (hi : s.sru.request ≠ some .initWord) {a : PortAccess}
    (h : sruAccess s = some a) (hwa : a.wa = attentionWord) : s.sru.request = some .attention := by
  unfold sruAccess at h
  split at h
  · cases h
  · next hr => exact absurd hr hi
  · split at h
    · cases h
    · split at h
      · cases h
        simp only [partWrite, ringBase, attentionWord] at hwa
        omega
      · cases h
        cases hwa
  · assumption
  · cases h
    cases hwa
  · split at h
    · cases h
    · next w hw =>
      cases h
      have := hs w hw
      simp only [partWrite, reportBase, statusWords, attentionWord] at this hwa
      omega

theorem carriesLatch_arbitrate {u : State} (h : CarriesLatch u) : CarriesLatch (arbitrate u) := by
  intro a hb ho hn hq
  rcases arbitrate_busy hb with hb' | ⟨-, -, ⟨r, hr, -⟩ | ⟨k, -, rfl, -⟩⟩
  · obtain ⟨h1, -⟩ := arbitrate_sru_holding hb' ho
    rw [h1] at hq ⊢
    exact h a hb' ho hn hq
  · have hr' : r = .sru := by
      have := (partAccess_owner hr).1
      rw [ho] at this
      cases this
      rfl
    subst hr'
    have hq' : (requestSru u).sru.request = some .attention := by
      rw [← hq]
      simp [arbitrate]
    rw [sruAccess_attention hq' hr]
    exact ⟨rfl, rfl, rfl, fun _ => by simp [partWrite]⟩
  · cases ho

theorem sruNext_reporting {u : State} (h : reporting u) : sruNext u ≠ some .initWord := fun hn => by
  have hp := (sruNext_initWord hn).1
  rcases h with h | h <;> rw [h] at hp <;> cases hp

theorem requestSru_reporting {u : State} (hr : reporting u) (h : u.sru.request ≠ some .initWord) :
    (requestSru u).sru.request ≠ some .initWord := by
  unfold requestSru
  split
  · exact sruNext_reporting hr
  · exact h

theorem attentionWord_below : attentionWord < lineBase := by decide

theorem showsLatch_arbitrate {u : State} (hr : reporting u) (hq : QueueOk u.ehu.queue) (hp : PortOk u) (h : ShowsLatch u) :
    ShowsLatch (arbitrate u) := by
  obtain ⟨h1, h2, h3⟩ := h
  obtain ⟨-, hmay, -, hstatus⟩ := (portOk_iff u).mp hp
  have hreq : (arbitrate u).sru.request = (requestSru u).sru.request := by simp [arbitrate]
  refine ⟨?_, fun a hb hw hwa => ?_, fun ha hn => ?_⟩
  · rw [hreq]
    exact requestSru_reporting hr h1
  · rcases arbitrate_busy hb with hb' | ⟨-, -, ⟨r, hrq, -⟩ | ⟨k, hk, rfl, -⟩⟩
    · exact arbitrate_inFlight (h2 a hb' hw hwa)
    · obtain ⟨ho, hn⟩ := partAccess_owner hrq
      cases r with
      | sru =>
        have hatt := sruAccess_attentionWord (by rwa [StatusIn, requestSru_sru_status]) (requestSru_reporting hr h1) hrq hwa
        exact ⟨hreq.trans hatt, a, hb, ho, hn⟩
      | ehu =>
        rcases ehuAccess_spec hrq with ⟨n, rfl, -⟩ | ⟨e, he, rfl⟩
        · cases hw
        · rw [requestSru_ehu] at he
          obtain ⟨hline, -⟩ := hq.2.2 e he
          have := attentionWord_below
          have hwa' : e.wa = attentionWord := hwa
          omega
      | hlt k =>
        obtain ⟨b, -, rfl⟩ := Option.map_eq_some_iff.mp hrq
        cases hw
      | rwk =>
        obtain ⟨b, -, rfl⟩ := Option.map_eq_some_iff.mp hrq
        cases hw
    · obtain ⟨hk1, hk2⟩ := processorWaits_spec hk
      rw [requestSru_ptp] at hk1
      have hm := hmay k hk1 hw (.inl hk2)
      have hwa' : k.acc.ha.toNat = attentionWord := hwa
      rw [hwa'] at hm
      exact absurd hm (by unfold processorMayWrite; decide)
  · have hns : ¬attentionInFlight u := fun hf => hn (arbitrate_inFlight hf)
    rcases arbitrate_attnReq u with h' | h'
    · rw [arbitrate_mem, arbitrate_sru_latch]
      exact h3 (h'.symm.trans ha) hns
    · exact absurd h' hn

theorem attentionOk_arbitrate {u : State} (hq : QueueOk u.ehu.queue) (hp : PortOk u) (h : AttentionOk u) : AttentionOk (arbitrate u) := by
  obtain ⟨h1, h2⟩ := (attentionOk_iff u).mp h
  refine (attentionOk_iff _).mpr ⟨carriesLatch_arbitrate h1, fun hr => ?_⟩
  have hr' : reporting u := by
    unfold reporting at hr ⊢
    rwa [arbitrate_rst] at hr
  exact showsLatch_arbitrate hr' hq hp (h2 hr')

/-- Settles O60. -/
theorem attentionInvariant : Obligations.AttentionInvariant := fun _ _ _ hm hh hp h he =>
  (kept_by_exec (P := fun u => HoldOk u ∧ PortOk u ∧ AttentionOk u) ⟨hh, hp, h⟩
    (fun _ _ hu => ⟨holdOk_acts hh hu, portOk_acts hh hp hu, attentionOk_acts h hm hu⟩)
    (fun _ hu => ⟨holdOk_takePresented hu.1, portOk_takePresented hu.2.1, attentionOk_takePresented hu.2.2⟩)
    (fun u hu => by
      obtain ⟨hh, hp, ha⟩ := hu
      obtain ⟨hq, -⟩ := (holdOk_iff u).mp hh
      exact ⟨holdOk_arbitrate hh, portOk_arbitrate hq hp, attentionOk_arbitrate hq hp ha⟩) he).2.2

end Sys2Proof.Machine

/-! The step, and the state after reset (R4, R44, R70, R94, R104, R121 to R125, R137, R144, R166, R173, R174, R192). -/

namespace Sys2Proof.Machine

open Sys2Proof.Config

/-! ## The step -/

/-- Settles O1. -/
theorem stepTakesFrontCommand : Obligations.StepTakesFrontCommand :=
  ⟨fun _ _ _ => rfl, fun s h => by rw [step, h]⟩

/-- Every way through every command ends in a next state. -/
theorem exec_answers (c : Instr) (s : State) : ∃ t, exec c s = .next t := by
  cases c
  all_goals
    simp only [exec, done, doneTaking, execPowerOn, execPowerGood, execMasterReset, execInitialisation, execInitWalkStart,
      execInitEnd, execMsTick, execFsyncPulse, execSubstituteExpiry, execOverdueDeadline, execFrameStep, execCurveLoad,
      execEhuBoundary, execHltFrame, execRowReadDone, execMessageSent, execHeadAck, execStatusSnapshot, execHandReport, execByteGap,
      execFramingError, execTake, execRelease, execPause, execMark, execReturnMark, execNextStory, execPrevStory,
      execPressWindowExpiry, execRateWindowEnd, execSilenceTimerExpiry, execSettleExpiry, execWalkReadDone, execStructureWrite,
      execContentWrite, execCommitWrite, execDroppedWrite, execAccessPresented, execSpillRetry, execProcessorWriteDone,
      execProcessorReadDone, execAccessWithdrawn, execHcsRises, execAttentionRead, execConsumeWrite, execRunReset, execRunResetDone,
      execSruWriteDone, execReleaseWriteDone, execGuardReadDone, execSettingWrite, execGuardBandWrite, execNearFullThresholdWrite,
      execHelmModeWrite, execLevelWrite, execAutoEnableWrite, execClaimantSettingWrite, execRouteWrite, execCardWrite,
      execAttentionMaskWrite, execInterruptEnableWrite, execResetPinFall, execResetPinRise]
    repeat' split
    all_goals exact ⟨_, rfl⟩

/-- Settles O2. -/
theorem partNeverStops : Obligations.PartNeverStops := by
  intro s
  unfold step
  split
  · exact ⟨s, rfl⟩
  · exact exec_answers _ _

/-! ## The state after reset -/

theorem bankOk_empty (b : Bank) (h : b.rows = []) : bankOk b := by
  simp [bankOk, h]

theorem mapOk_reset : MapOk State.reset :=
  ⟨bankOk_empty _ rfl, bankOk_empty _ rfl, (nomatch ·), fun _ h => (nomatch h)⟩

theorem positionOk_reset : PositionOk State.reset := ⟨fun _ => ⟨rfl, rfl⟩, Nat.zero_le _, by decide, by decide, by decide⟩

theorem ringOk_reset : RingOk State.reset := ⟨by decide, trivial⟩

theorem portOk_reset : PortOk State.reset :=
  ⟨fun _ h => (nomatch h), fun _ h => (nomatch h), (nomatch ·), fun _ h => (nomatch h)⟩

theorem attentionOk_reset : AttentionOk State.reset :=
  (attentionOk_iff _).mpr ⟨fun _ h => (nomatch h), fun h => by rcases h with h | h <;> cases h⟩

/-- Settles O3. -/
theorem resetMeetsInvariants : Obligations.ResetMeetsInvariants :=
  ⟨rfl, ⟨by decide, fun _ => ⟨rfl, rfl⟩, fun _ => by decide⟩, (holdOk_iff _).mpr ⟨queueOk_nil, fun _ h => (nomatch h)⟩, mapOk_reset,
    positionOk_reset, marksIn_nil _, inRange_reset, ringOk_reset, show FreshIn resetSru by unfold FreshIn; decide, Nat.zero_le _,
    portOk_reset, attentionOk_reset, fun _ h => (nomatch h),
    ⟨fun _ => ⟨rfl, rfl⟩, fun _ => rfl, (nomatch ·)⟩⟩

/-- Settles O4: the values are those the blocks' reset states spell out. -/
theorem resetValues : Obligations.ResetValues := by
  have link (l : Link) : State.reset.hlr.get l = resetHlr := by cases l <;> rfl
  have head (k : Head) : State.reset.hlt.get k = resetHlt k := by cases k <;> rfl
  refine ⟨⟨rfl, rfl, rfl, rfl, rfl, rfl, rfl, rfl, rfl⟩, by decide, by decide, fun l => ?_, fun c => ?_, by decide, rfl, rfl, by decide,
    by decide, fun k => ?_, by decide,
    by decide, by decide, rfl⟩
  · rw [link]
    simp [resetHlr, resetButton]
  · cases c <;> rfl
  · rw [head]
    refine ⟨rfl, rfl, rfl, rfl, rfl, rfl, rfl, fun v hv => List.eq_of_mem_replicate hv, ?_, ?_, ?_⟩ <;> cases k <;> rfl

end Sys2Proof.Machine

/-! Master reset and the reset pin (R172, R176, R177, R193). -/

namespace Sys2Proof.Machine

open Sys2Proof.Config

/-! ## A command whose state before the arbiter is known -/

/-- A command carried out that writes only these blocks. -/
theorem Acts.changes {c : Instr} {s u : State} {bs : List Block} (h : Acts s c false u) (hw : Writes bs s u)
    (hs : Block.sru ∈ bs ∨ u.sru = s.sru) : exec c s = .next (arbitrate u) ∧ onlyChanges bs s (arbitrate u) :=
  ⟨exec_of_acts h, hw.onlyChanges_arbitrate hs⟩

/-- A command carried out that writes only these blocks and raises these events. -/
theorem Acts.raises {c : Instr} {s u : State} {bs : List Block} {es : List Event} (h : Acts s c false u) (hw : Writes bs s u)
    (he : u.sru = acceptAll s.sru u es) : exec c s = .next (arbitrate u) ∧ onlyRaises bs es s (arbitrate u) :=
  ⟨exec_of_acts h, hw.onlyRaises_arbitrate he⟩

/-! ## While the master reset holds -/

/-- With nothing waiting at it, the arbiter leaves the port as it is, but for a fairness count of 0 (R173). -/
theorem grant_of_nothing_waits {s : State} (hp : ∀ r, partAccess s r = none) (hc : s.ptp.carried = none) : grant s = s := by
  have hw (r : Requester) : partWaits s r = false := by simp [partWaits, hp]
  have ha : anyPartWaits s = false := by simp [anyPartWaits, hw]
  have hg : grantPart s = s := by
    unfold grantPart
    rw [List.find?_eq_none.mpr fun r _ => by simp [hw]]
  have hpr : processorWaits s = none := by simp [processorWaits, hc]
  unfold grant
  rw [ha, hpr, hg]
  simp

/-- A master reset that holds: no block has anything to ask of the port (R173, R177, R193). -/
theorem arbitrate_masterReset {s : State} {k : ResetCause} {x : Rst} (hx : x.phase = .held) :
    arbitrate ((masterReset s k).withRst x) = (masterReset s k).withRst x := by
  have hr : requestSru ((masterReset s k).withRst x) = (masterReset s k).withRst x := by
    unfold requestSru sruNext
    rw [State.withRst_rst, hx]
    split <;> rfl
  have hf : clearFairness ((masterReset s k).withRst x) = (masterReset s k).withRst x := by
    unfold clearFairness
    split <;> rfl
  have hp (r : Requester) : partAccess ((masterReset s k).withRst x) r = none := by
    cases r with
    | ehu =>
      unfold partAccess ehuAccess
      rw [State.withRst_rst, hx]
      rfl
    | hlt k => cases k <;> rfl
    | sru => rfl
    | rwk => rfl
  rw [arbitrate, hr, hf, grant_of_nothing_waits hp rfl]

theorem standsPresented_masterReset (s : State) (k : ResetCause) : standsPresented s (masterReset s k) := by
  have hp : (masterReset s k).ptp.presented = stillPresented s.ptp := rfl
  unfold standsPresented
  rw [hp]
  refine ⟨fun a ha => by simp [stillPresented, ha], fun c hn hc => by simp [stillPresented, hn, hc], fun hn hc => by simp [stillPresented, hn, hc]⟩

theorem orphaned_spec (s : State) (a : PortAccess) :
    (orphaned s a).orphan = true ∧ (orphaned s a).owner = a.owner ∧ (orphaned s a).write = a.write ∧ (orphaned s a).wa = a.wa ∧
      (∀ e, releaseInProgress a → s.ehu.queue.find? (fun x => x.wa == a.wa) = some e →
        (orphaned s a).lanes = e.mask ∧ (orphaned s a).data = e.data) ∧
      (¬releaseInProgress a ∨ (∀ e ∈ s.ehu.queue, e.wa ≠ a.wa) → (orphaned s a).lanes = a.lanes ∧ (orphaned s a).data = a.data) := by
  unfold orphaned
  split
  · next hr =>
    split
    · next e he =>
      refine ⟨rfl, rfl, rfl, rfl, fun e' _ he' => ?_, fun h => ?_⟩
      · rw [he] at he'
        cases he'
        exact ⟨rfl, rfl⟩
      · rcases h with h | h
        · exact absurd hr h
        · exact absurd (by simpa using List.find?_some he) (h e (List.mem_of_find?_eq_some he))
    · next he =>
      refine ⟨rfl, rfl, rfl, rfl, fun e' _ he' => ?_, fun _ => ⟨rfl, rfl⟩⟩
      rw [he] at he'
      cases he'
  · next hr => exact ⟨rfl, rfl, rfl, rfl, fun _ h => absurd h hr, fun _ => ⟨rfl, rfl⟩⟩

/-- What a master reset leaves, whatever the reset control goes on to (R177). -/
theorem masterResetDone_withRst (s : State) (k : ResetCause) (x : Rst) :
    masterResetDone s ((masterReset s k).withRst x) := by
  refine ⟨standsPresented_masterReset s k, ?_, rfl, rfl, rfl, ?_, rfl, ?_, fun a b ha hb => ?_⟩
  · exact ⟨rfl, rfl, rfl, rfl, rfl, rfl, rfl, rfl, rfl, rfl, rfl, rfl⟩
  · rfl
  · exact Option.map_eq_none_iff
  · obtain ⟨d, hd, rfl⟩ := masterReset_busy (s := s) (k := k) hb
    rw [ha] at hd
    cases hd
    exact orphaned_spec s a

/-- Settles O5. -/
theorem masterResetBegins : Obligations.MasterResetBegins := by
  refine ⟨fun s => ?_, fun s f lowFor hj hf => ?_, fun s f lowFor hj hf => ?_, fun s lowFor hj => ?_⟩
  · have he := exec_of_acts (s := s) .powerOn
    rw [finish, if_neg (by simp), arbitrate_masterReset rfl] at he
    exact ⟨_, he, masterResetDone_withRst s .power _, rfl⟩
  · have he := exec_of_acts (.masterReset hj hf)
    rw [finish, if_neg (by simp)] at he
    have hm : arbitrate (masterReset s .pin) = masterReset s .pin := arbitrate_masterReset (k := .pin) (x := (masterReset s .pin).rst) rfl
    rw [hm] at he
    exact ⟨_, he, masterResetDone_withRst s .pin (masterReset s .pin).rst, rfl⟩
  · simp [exec, execMasterReset, hj, Nat.not_le.mpr hf]
  · simp [exec, execMasterReset, hj]

/-! ## The reset pin -/

theorem deglitchWidth_eq (dgs : BitVec 2) : [0, 2, 32, 1000][dgs.toNat]? = some (deglitchWidth dgs) := by
  revert dgs
  decide

/-- The state when RESET# has returned high, before initialisation may begin (R176). -/
def pinRaised (s : State) : State := s.withRst { s.rst with pinLow := false, judging := none }

theorem pinHigh_of_none {s : State} (h : s.rst.judging = none) (lowFor : Nat) : pinHigh s lowFor = initIfReady (pinRaised s) := by
  simp [pinHigh, pinRaised, h]

theorem pinHigh_of_short {s : State} {f lowFor : Nat} (h : s.rst.judging = some f) (hf : lowFor < 2 * f) :
    pinHigh s lowFor = initIfReady (pinRaised s) := by
  simp [pinHigh, pinRaised, h, Nat.not_le.mpr hf]

theorem pinHigh_of_long {s : State} {f lowFor : Nat} (h : s.rst.judging = some f) (hf : 2 * f ≤ lowFor) :
    pinHigh s lowFor = initIfReady (pinRaised (masterReset s .pin)) := by
  simp [pinHigh, pinRaised, h, hf]

theorem initIfReady_begins {s : State} (hp : s.rst.phase = .held) (hs : s.rst.supplyGood = true) (hl : s.rst.pinLow = false) :
    initIfReady s = beginInit s := if_pos ⟨hp, hs, hl⟩

theorem initIfReady_waits {s : State} (h : s.rst.phase ≠ .held ∨ s.rst.supplyGood = false ∨ s.rst.pinLow = true) : initIfReady s = s := by
  unfold initIfReady
  rw [if_neg]
  rintro ⟨h1, h2, h3⟩
  simp [h1, h2, h3] at h

theorem arbitrate_carried_none {u : State} (h : u.ptp.carried = none) : (arbitrate u).ptp = u.ptp := by
  obtain ⟨h1, h2 | ⟨c, hc, -⟩⟩ := arbitrate_ptp u
  · rw [h1, h2]
  · rw [h] at hc
    cases hc

/-- The blocks stand at reset when the pin's rise has reset the part, whether initialisation has begun or not (R176, R193). -/
theorem blocksReset_arbitrate {s u : State} {x : Rst} (hu : u = (masterReset s .pin).withRst x ∨ u = beginInit ((masterReset s .pin).withRst x)) :
    blocksReset s (arbitrate u) := by
  have hall : u.mem = s.mem ∧ u.pending = s.pending ∧ u.rwk = State.reset.rwk ∧ u.ehu = State.reset.ehu ∧ u.sce = State.reset.sce ∧
      u.hlr = State.reset.hlr ∧ u.helm = State.reset.helm ∧ u.ftu = State.reset.ftu ∧ u.hlt = State.reset.hlt ∧
      u.sru = State.reset.sru ∧ u.ptp = (masterReset s .pin).ptp := by
    rcases hu with rfl | rfl <;> exact ⟨rfl, rfl, rfl, rfl, rfl, rfl, rfl, rfl, rfl, rfl, rfl⟩
  obtain ⟨h1, h2, h3, h4, h5, h6, h7, h8, h9, h10, h11⟩ := hall
  have hptp : (arbitrate u).ptp = (masterReset s .pin).ptp := by
    rw [arbitrate_carried_none (by rw [h11]; rfl), h11]
  have hsru := arbitrate_sruIs u
  rw [h10] at hsru
  simp only [blocksReset, arbitrate_mem, arbitrate_pending, arbitrate_rwk, arbitrate_ehu, arbitrate_sce, arbitrate_hlr, arbitrate_helm,
    arbitrate_ftu, arbitrate_hlt]
  refine ⟨h1, h2, h3, h4, h5, h6, h7, h8, h9, hsru, ?_, ?_, ?_, ?_⟩
  · rw [hptp]; rfl
  · rw [hptp]; rfl
  · rw [hptp]; rfl
  · unfold standsPresented
    rw [hptp]
    exact standsPresented_masterReset s .pin

/-- Settles O6. -/
theorem resetPinJudged : Obligations.ResetPinJudged := by
  refine ⟨fun s dgs hl hp => ?_, fun s dgs hl hp => ?_, fun s f lowFor hl hp hj hf => ?_, fun s f lowFor hl hj hf => ?_⟩
  · have ha := Acts.resetPinFall (s := s) dgs hl
    obtain ⟨he, hc⟩ := ha.changes (acts_writes ha) (.inr rfl)
    refine ⟨_, he, hc, ?_⟩
    rw [arbitrate_rst, State.withRst_rst, if_neg hp, deglitchWidth_eq]
  · have ha := Acts.resetPinFall (s := s) dgs hl
    obtain ⟨he, hc⟩ := ha.changes (acts_writes ha) (.inr rfl)
    refine ⟨_, he, hc, ?_⟩
    rw [arbitrate_rst, State.withRst_rst, if_pos hp]
  · have ha := Acts.resetPinRise (s := s) lowFor hl
    rw [pinHigh_of_short hj hf, initIfReady_waits (s := pinRaised s) (.inl hp)] at ha
    obtain ⟨he, hc⟩ := ha.changes (writes_withRst s _) (.inr rfl)
    exact ⟨_, he, hc, by rw [arbitrate_rst]; rfl⟩
  · have ha := Acts.resetPinRise (s := s) lowFor hl
    rw [pinHigh_of_long hj hf] at ha
    refine ⟨_, exec_of_acts ha, ?_⟩
    rw [finish, if_neg (by simp)]
    by_cases hg : s.rst.supplyGood = true
    · rw [initIfReady_begins (s := pinRaised (masterReset s .pin)) rfl hg rfl]
      exact ⟨blocksReset_arbitrate (.inr rfl), by rw [arbitrate_rst, if_pos hg]; rfl⟩
    · have hg' : s.rst.supplyGood = false := by simpa using hg
      rw [initIfReady_waits (s := pinRaised (masterReset s .pin)) (.inr (.inl hg'))]
      exact ⟨blocksReset_arbitrate (.inl rfl), by rw [arbitrate_rst, if_neg hg]; rfl⟩

end Sys2Proof.Machine

/-! Initialisation and the writes of the settings and report unit (R127, R172, R176, R193, R196, R203). -/

namespace Sys2Proof.Machine

open Sys2Proof.Config

theorem inProgress_of {s : State} {a : PortAccess} {o : Owner} {w : Bool} (h : s.port.busy = some a) (ho : a.owner = o)
    (hw : a.write = w) : inProgress s o w = some a := by
  simp [inProgress, h, ho, hw]

/-- A guard set bit loaded is the entry's, and every other stays (R31). -/
theorem setGuard_getLsbD (x : Ehu) {entry i : Nat} (b : Bool) (hi : i < 256) :
    (x.setGuard entry b).guardSet.getLsbD i = if i = entry then b else x.guardSet.getLsbD i := by
  unfold Ehu.setGuard
  cases b <;> by_cases he : i = entry <;> simp [BitVec.getLsbD_twoPow, hi, he]
  all_goals grind

/-! ## A standing access taken -/

/-- The processor side when an access has been taken: it is carried, and nothing else stands presented (R169). -/
def TakenAs (a : Access) (x : Ptp) : Prop := x.presented = none ∧ ∃ c, x.carried = some c ∧ c.acc = a ∧ c.withdrawn = false

theorem takenAs_carry {s : State} {a : Access} (h : s.ptp.presented = none) (lanes : Lanes) : TakenAs a (carry s a lanes false).ptp :=
  ⟨h, _, rfl, rfl, rfl⟩

theorem commitActs_ptp (s : State) (a : Access) : (commitActs s a).ptp = s.ptp := (writes_commitActs s a).ptp (by simp)

theorem structureSeen_ptp (s : State) (a : Access) : (structureSeen s a).ptp = s.ptp := (writes_structureSeen s a).ptp (by simp)

theorem takenAs_decideWrite {s : State} {a : Access} (h : s.ptp.presented = none) : TakenAs a (decideWrite s a false).ptp := by
  unfold decideWrite
  dsimp only
  split
  · exact takenAs_carry (by rw [commitActs_ptp, h]) _
  · split
    · exact takenAs_carry (by rw [commitActs_ptp]; exact h) _
    · exact takenAs_carry (by rw [commitActs_ptp, nearFullTest_ptp]; exact h) _
    · exact ⟨h, _, rfl, rfl, rfl⟩
    · exact takenAs_carry (by rw [commitActs_ptp, h]) _

theorem takenAs_takeAccess {s : State} {a : Access} (h : s.ptp.presented = none) : TakenAs a (takeAccess s a).ptp := by
  unfold takeAccess
  split
  · split
    · exact takenAs_carry h _
    · exact takenAs_carry h _
    · split
      · exact takenAs_carry h _
      · exact ⟨h, _, rfl, rfl, rfl⟩
    · exact takenAs_carry (by rw [structureSeen_ptp, h]) _
    · exact takenAs_decideWrite (by rw [structureSeen_ptp, h])
  · exact takenAs_carry h _

theorem takenAs_arbitrate {u : State} {a : Access} (h : TakenAs a u.ptp) : TakenAs a (arbitrate u).ptp := by
  obtain ⟨h1, c, hc, ha, hw⟩ := h
  obtain ⟨hp, hk | ⟨d, hd, -, hk⟩⟩ := arbitrate_ptp u
  · exact ⟨by rw [hp]; exact h1, c, by rw [hk, hc], ha, hw⟩
  · rw [hc] at hd
    cases hd
    exact ⟨by rw [hp]; exact h1, _, hk, ha, hw⟩

/-- The access that stands presented is taken where it can be (R169). -/
theorem takenAs_takePresented {u : State} {a : Access} (hr : readyToTake u) (hp : u.ptp.presented = some a) :
    TakenAs a (takePresented u).ptp := by
  rcases takePresented_cases u with ⟨-, h | h⟩ | ⟨d, -, hd, h⟩
  · exact absurd hr h
  · rw [hp] at h; cases h
  · rw [hp] at hd
    cases hd
    rw [h]
    exact takenAs_takeAccess rfl

/-- The state when initialisation ends at a microsecond count (R99, R137, R193). -/
def ended (s : State) (now : Nat) : State :=
  ((s.withRst { s.rst with phase := .running }).withFtu
    { s.ftu.reach now with
      lastBoundary := (s.ftu.reach now).micros
      substituteAt := some ((s.ftu.reach now).micros + (s.ftu.reach now).nominal) }).withHlr
    ⟨{ s.hlr.operator with rateTimer := some 100 }, { s.hlr.presenter with rateTimer := some 100 }⟩

/-- Settles O7. -/
theorem initialisationSteps : Obligations.InitialisationSteps := by
  refine ⟨fun s hp hl => ?_, fun s hp hl => ?_, fun s hp hj hg => ?_, fun s hp hj hg => ?_, fun s a hb ho hw hn => ?_,
    fun s a hb ho hw hn => ?_, fun s hp hi hg => ?_, fun s h => ?_, fun s now hp => ?_⟩
  · have ha := Acts.powerGood (s := s)
    rw [initIfReady_begins (s := s.withRst { s.rst with supplyGood := true }) hp rfl hl] at ha
    obtain ⟨he, hc⟩ := ha.changes (acts_writes ha) (.inr rfl)
    exact ⟨_, he, hc, by rw [arbitrate_rst]; rfl, by rw [arbitrate_ftu]; rfl⟩
  · have ha := Acts.powerGood (s := s)
    rw [initIfReady_waits (s := s.withRst { s.rst with supplyGood := true }) (.inr (.inr hl))] at ha
    obtain ⟨he, hc⟩ := ha.changes (writes_withRst s _) (.inr rfl)
    exact ⟨_, he, hc, by rw [arbitrate_rst]; rfl⟩
  · have ha := Acts.initialisation (s := s)
    rw [pinHigh_of_none hj, initIfReady_begins (s := pinRaised s) hp hg rfl] at ha
    obtain ⟨he, hc⟩ := ha.changes (bs := [.rst, .ftu]) (((Writes.refl _ s).withRst _ (by decide)).withFtu _ (by decide)) (.inr rfl)
    exact ⟨_, he, hc, by simp [beginInit, pinRaised, hj], by rw [arbitrate_ftu]; rfl⟩
  · have ha := Acts.initialisation (s := s)
    rw [pinHigh_of_none hj, initIfReady_waits (s := pinRaised s) (.inr (.inl hg))] at ha
    obtain ⟨he, hc⟩ := ha.changes (writes_withRst s _) (.inr rfl)
    exact ⟨_, he, hc, by simp [pinRaised, hj]⟩
  · have ha := Acts.guardReadDone (inProgress_of hb ho hw) hn
    obtain ⟨he, hc⟩ := ha.changes (bs := [.ehu, .rst, .port]) ((acts_writes ha).mono (by simp)) (.inr rfl)
    refine ⟨_, he, hc, ?_, by rw [arbitrate_rst]; rfl, fun i hi => ?_⟩
    · rw [arbitrate_ehu]; rfl
    · rw [arbitrate_ehu]
      exact setGuard_getLsbD _ _ hi
  · have ha := Acts.guardReadLeft (inProgress_of hb ho hw) hn
    obtain ⟨he, hc⟩ := ha.changes (writes_freePort s) (.inr rfl)
    exact ⟨_, he, hc, rfl⟩
  · have ha := Acts.initWalkStart (s := s) ⟨hp, hi, hg⟩
    obtain ⟨he, hc⟩ := ha.raises (es := [.reset s.rst.cause]) (acts_writes ha) rfl
    exact ⟨_, he, hc, by rw [arbitrate_rst]; rfl, by rw [arbitrate_rwk]; rfl⟩
  · have hn : ¬(s.rst.phase = .windows ∧ s.rst.initWord = 2048 ∧ s.rst.guardNext = entryCount) := by
      rintro ⟨-, h1, h2⟩
      have : entryCount = 256 := rfl
      omega
    exact if_neg hn
  · have ha : Acts s (.initEnd now) true (ended s now) := .initEnd now hp
    have he : exec (.initEnd now) s = .next (goOn (ended s now)) := exec_of_acts ha
    have hw : Writes [.rst, .ftu, .hlr] s (ended s now) := acts_writes ha
    have ht := writes_takePresented (ended s now)
    have hlr (l : Link) : (ended s now).hlr.get l = { s.hlr.get l with rateTimer := some 100 } := by cases l <;> rfl
    refine ⟨_, he, ?_, ?_, fun l => ?_, fun hn => ?_, fun a hc hh hpr => ?_, ?_⟩
    · rw [goOn, arbitrate_rst, ht.rst (by simp)]
      rfl
    · rw [goOn, arbitrate_ftu, ht.ftu (by simp)]
      rfl
    · rw [goOn, arbitrate_hlr, ht.hlr (by simp), hlr]
    · rw [goOn_eq_arbitrate (s := ended s now) (.inr hn)]
      exact hw.onlyChanges_arbitrate (.inr rfl)
    · exact takenAs_arbitrate (takenAs_takePresented (u := ended s now) ⟨rfl, hc, hh⟩ hpr)
    · exact ((hw.mono (by simp)).takePresented (by simp)).onlyChanges_arbitrate (.inl (by simp))

/-! ## The writes of the settings and report unit -/

theorem wordWritten_of {s t : State} {wa : Nat} {lanes : Lanes} {data : Word} (hm : MemOk s) (h : t.mem = writeWord s.mem wa lanes data) :
    wordWritten wa lanes data s t := fun a => by rw [h, readByte_writeWord wa lanes data a hm]

/-- The SRU as the arbiter leaves it, but for what the arbiter does (R199, R203). -/
theorem sruIs_congr {x y : Sru} {t : State} (h : sruIs x t) (hr : y = { x with request := y.request }) : sruIs y t := by
  obtain ⟨h1, h2⟩ := h
  rw [sruIs, hr]
  exact ⟨h1, h2⟩

theorem sruNext_report {s : State} (h : reporting s) : sruNext s =
    if s.sru.records ≠ [] then some .record else if s.sru.attnReq = true then some .attention
    else if s.sru.zeroDue = true then some .runResetZero else if s.sru.status ≠ none then some .status else none := by
  unfold sruNext
  rcases h with h | h <;> rw [h] <;> dsimp only <;> simp [Option.isSome_iff_ne_none]

/-- Settles O8. -/
theorem sruWritePerformed : Obligations.SruWritePerformed := by
  refine ⟨fun s a k hm hb ho hw hn hk => ?_, fun s a hm hb ho hw hn => ?_, fun s => ⟨fun hr => ?_, fun hp => ?_, fun hp => ?_, fun hp => ?_,
    fun hp => ?_, fun hh hx => ?_, fun h => ?_⟩⟩
  · have ha := Acts.sruWriteDone (inProgress_of hb ho hw) hn hk
    obtain ⟨he, hc⟩ := ha.changes (bs := [.mem, .rst, .sru, .port]) ((acts_writes ha).mono (by simp)) (.inl (by simp))
    have hsru := arbitrate_sruIs ((((freePort s).withMem (writeWord s.mem a.wa a.lanes a.data)).withRst
      (s.rst.performed k s.sru.recordWord)).withSru (s.sru.performed k))
    rw [State.withSru_sru] at hsru
    refine ⟨_, he, hc, wordWritten_of hm (by rw [arbitrate_mem]; rfl), ?_, ?_, ?_, ?_, ?_, ?_, ?_, ?_, ?_⟩
    · rintro rfl hr
      exact sruIs_congr hsru (by simp [Sru.performed, hr])
    · rintro rfl hr
      exact sruIs_congr hsru (by simp [Sru.performed, Nat.not_lt.mpr hr])
    · rintro rfl
      exact sruIs_congr hsru (by simp [Sru.performed])
    · rintro w rfl hst
      refine sruIs_congr hsru ?_
      have : w.next + 1 < statusWords ↔ w.next < 31 := by simp only [statusWords]; omega
      simp [Sru.performed, hst, this]
    · rintro (rfl | rfl) <;> exact sruIs_congr hsru (by simp [Sru.performed])
    all_goals rw [arbitrate_rst, State.withSru_rst, State.withRst_rst]
    · rintro hp rfl
      simp [Rst.performed, hp]
    · rintro hp rfl hr
      simp [Rst.performed, hp, Nat.not_lt.mpr hr]
    · rintro hp rfl
      simp [Rst.performed, hp]
    · rintro (hp | hp) <;> simp [Rst.performed, hp]
  · have ha := Acts.sruWriteLeft (inProgress_of hb ho hw) (.inl hn)
    obtain ⟨he, hc⟩ := ha.changes (bs := [.mem, .port]) ((Writes.refl _ s).step (writes_freePort s) (by decide) |>.withMem _ (by decide)) (.inr rfl)
    exact ⟨_, he, hc, wordWritten_of hm (by rw [arbitrate_mem]; rfl)⟩
  · rw [sruNext_report hr]
    grind
  · simp [sruNext, hp]
  · simp [sruNext, hp]
  · simp [sruNext, hp]
  · simp [sruNext, hp]
  · unfold requestSru
    rw [if_pos]
    rcases hx with hx | hx <;> simp [hh, hx]
  · unfold requestSru
    rw [if_neg]
    rcases h with h | ⟨h1, h2⟩
    · simp [h]
    · simp [h1, h2]

end Sys2Proof.Machine

/-! The time base and the frame boundaries (R127 to R135). -/

namespace Sys2Proof.Machine

open Sys2Proof.Config

/-! ## A pulse by the sync state (R130 to R133) -/

/-- A pulse in ACQUIRING has been measured, with the good-period count it brings (R131). -/
def Ftu.measured (x : Ftu) (count : Nat) : Ftu :=
  { x with lastPeriod := interval x.micros x.prevPulse, prevPulse := x.micros, goodCount := count }

theorem pulse_substitute {x : Ftu} (h : x.sync = .substitute) (n : Nat) :
    x.pulse n = ({ x with sync := .acquiring, goodCount := 0, prevPulse := x.micros }, []) := by
  simp [Ftu.pulse, h]

theorem pulse_bad {x : Ftu} (h : x.sync = .acquiring) (hg : inRange x.nominal (interval x.micros x.prevPulse) = false) (n : Nat) :
    x.pulse n = (x.measured 0, []) := by
  simp [Ftu.pulse, Ftu.measured, h, hg]

theorem pulse_good {x : Ftu} (h : x.sync = .acquiring) (hg : inRange x.nominal (interval x.micros x.prevPulse) = true)
    (hc : x.goodCount < 7) (n : Nat) : x.pulse n = (x.measured (x.goodCount + 1), []) := by
  simp [Ftu.pulse, Ftu.measured, h, hg, Nat.not_le.mpr hc]

theorem pulse_locks {x : Ftu} (h : x.sync = .acquiring) (hg : inRange x.nominal (interval x.micros x.prevPulse) = true)
    (hc : x.goodCount = 7) (n : Nat) : ∃ z : Ftu, z = (x.measured 8).lock n x.micros ∧
      x.pulse n = (z, [.syncState .locked z.nominal (interval x.micros x.prevPulse)]) := by
  refine ⟨_, rfl, ?_⟩
  simp [Ftu.pulse, Ftu.measured, h, hg, hc]

theorem lock_boundary {x : Ftu} {now : Nat} (h : x.nominal ≤ 2 * interval now x.lastBoundary) (n : Nat) :
    x.lock n now = { x with sync := .locked, substituteAt := none }.boundary n now := if_pos h

theorem lock_rephase {x : Ftu} {now : Nat} (h : 2 * interval now x.lastBoundary < x.nominal) (n : Nat) :
    x.lock n now = { x with sync := .locked, substituteAt := none, lastBoundary := now } := if_neg (Nat.not_le.mpr h)

theorem pulse_locked {x : Ftu} (h : x.sync = .locked) (hg : x.nominal - x.nominal / 8 ≤ interval x.micros x.lastBoundary) (n : Nat) :
    x.pulse n = ({ x with
      frame := x.frame + 1, lastBoundary := x.micros, lastPeriod := interval x.micros x.lastBoundary, nominal := n, due := allDue }, []) := by
  simp [Ftu.pulse, Ftu.boundary, h, hg]

theorem pulse_glitch {x : Ftu} (h : x.sync = .locked) (hg : interval x.micros x.lastBoundary < x.nominal - x.nominal / 8) (n : Nat) :
    x.pulse n = ({ x with glitches := x.glitches + 1 }, []) := by
  simp [Ftu.pulse, h, Nat.not_le.mpr hg]

theorem inRange_iff {n t : Nat} : inRange n t = true ↔ n - n / 8 ≤ t ∧ t ≤ n + n / 8 := decide_eq_true_iff

/-- A pulse in `running`, by what it makes of the frame timing (R128). -/
theorem fsyncPulse_changes {s : State} {now : Nat} (hp : s.rst.phase = .running) {f : Ftu}
    (hf : (s.ftu.reach now).pulse s.sru.set.nominal = (f, [])) :
    ∃ t, exec (.fsyncPulse now) s = .next t ∧ onlyChanges [.ftu] s t ∧ t.ftu = f := by
  have ha := Acts.fsyncPulse (s := s) now hp
  rw [hf] at ha
  obtain ⟨he, hc⟩ := ha.changes (acts_writes ha) (.inr rfl)
  exact ⟨_, he, hc, by rw [arbitrate_ftu]; rfl⟩

theorem settle_tick_of_not_running {x : SettleTimer} (h : ∀ n, x ≠ .running n) : x.tick = x := by
  cases x with
  | running n => exact absurd rfl (h n)
  | stopped => rfl
  | elapsed => rfl

/-- Settles O9. -/
theorem msTickCounts : Obligations.MsTickCounts := by
  intro s hp
  have ha := Acts.msTick hp
  obtain ⟨he, hc⟩ := ha.changes (acts_writes ha) (.inr rfl)
  refine ⟨_, he, hc, ?_, ?_, ?_, ?_, ?_⟩
  · rw [arbitrate_ftu]; rfl
  · rw [arbitrate_rwk]; rfl
  all_goals simp only [arbitrate_rwk, arbitrate_hlr]
  · intro n hn
    exact (congrArg SettleTimer.tick hn :)
  · exact settle_tick_of_not_running
  · intro l
    have hl : (Pair.mk s.hlr.operator.tick s.hlr.presenter.tick).get l = (s.hlr.get l).tick := by cases l <;> rfl
    rw [State.withHlr_hlr, hl]
    refine ⟨rfl, fun n hn => ?_, fun hn => ?_, fun hn => ?_, fun n hn => ?_, fun hn => ?_, fun hn => ?_⟩ <;> simp [Hlr.tick, hn]

/-- Settles O10. -/
theorem timedBoundaries : Obligations.TimedBoundaries := by
  refine ⟨fun s at_ hat hle => ?_, fun s hn => ?_, fun s => ⟨fun hl hle => ?_, fun hn => ?_⟩⟩
  · have ha := Acts.substituteExpiry hat (by simpa [Ftu.hasCome] using hle)
    obtain ⟨he, hc⟩ := ha.changes (acts_writes ha) (.inr rfl)
    exact ⟨_, he, hc, by rw [arbitrate_ftu]; rfl⟩
  · simp only [exec, execSubstituteExpiry]
    split
    · next at_ hat => rw [if_neg (by simpa [Ftu.hasCome] using hn at_ hat)]
    · rfl
  · have ha := Acts.overdueDeadline (s := s) ⟨hl, by simpa [Ftu.hasCome, Ftu.deadline] using hle⟩
    obtain ⟨he, hc⟩ := ha.raises (es := [.syncState .substitute s.sru.set.nominal s.ftu.lastPeriod]) (acts_writes ha) rfl
    exact ⟨_, he, hc, by rw [arbitrate_ftu]; rfl⟩
  · refine if_neg ?_
    rintro ⟨h1, h2⟩
    rcases hn with h | h
    · exact h h1
    · have : s.ftu.deadline ≤ max s.ftu.micros s.ftu.tickAt := by simpa [Ftu.hasCome] using h2
      exact absurd this (Nat.not_le.mpr h)

/-- Settles O11. -/
theorem fsyncPulses : Obligations.FsyncPulses := by
  refine ⟨fun s now hp => ⟨fun hs => ?_, fun hs hg => ?_, fun hs hg hn => ?_, fun hs hg hn => ?_⟩, fun s now hp hs => ⟨fun hg => ?_, fun hg => ?_⟩⟩
  · exact fsyncPulse_changes hp (pulse_substitute (x := s.ftu.reach now) hs _)
  · have hb : inRange s.ftu.nominal (interval (s.ftu.reach now).micros s.ftu.prevPulse) = false := by
      rw [← Bool.not_eq_true, inRange_iff]
      exact hg
    exact fsyncPulse_changes hp (pulse_bad (x := s.ftu.reach now) hs hb _)
  · exact fsyncPulse_changes hp (pulse_good (x := s.ftu.reach now) hs (inRange_iff.mpr hg) hn _)
  · obtain ⟨z, hz, hf⟩ := pulse_locks (x := s.ftu.reach now) hs (inRange_iff.mpr hg) hn s.sru.set.nominal
    have ha := Acts.fsyncPulse (s := s) now hp
    rw [hf] at ha
    have hftu : (arbitrate (raiseAll (s.withFtu z) [.syncState .locked z.nominal
        (interval (s.ftu.reach now).micros (s.ftu.reach now).prevPulse)])).ftu = z := by
      rw [arbitrate_ftu]
      rfl
    refine ⟨_, exec_of_acts ha, ?_, ?_, ?_, ?_⟩
    · rw [finish, if_neg (by simp), hftu]
      exact (acts_writes ha).onlyRaises_arbitrate rfl
    all_goals rw [finish, if_neg (by simp), hftu, hz]
    · unfold Ftu.lock
      dsimp only
      split <;> rfl
    · intro hhalf
      rw [lock_boundary (x := (s.ftu.reach now).measured 8) (now := (s.ftu.reach now).micros) hhalf]
      exact ⟨rfl, rfl, rfl⟩
    · intro hhalf
      rw [lock_rephase (x := (s.ftu.reach now).measured 8) (now := (s.ftu.reach now).micros) hhalf]
      exact ⟨rfl, rfl, rfl⟩
  · exact fsyncPulse_changes hp (pulse_locked (x := s.ftu.reach now) hs hg _)
  · exact fsyncPulse_changes hp (pulse_glitch (x := s.ftu.reach now) hs hg _)

end Sys2Proof.Machine

/-! The frame step on the map as it stands: motion, STOP rows, the ends of the map and jumps (R51 to R63, R80 to R83). -/

namespace Sys2Proof.Machine

open Sys2Proof.Config

/-! ## The parts of a step -/

/-- The jump and motion parts leave the engine but for the position, the speed, the marks, the request and the stop flag (R55 to R62). -/
theorem moved_eq (x : Sce) (t : Int) : (x.moved t).1 = { x with
    pos := (x.moved t).1.pos, speed := (x.moved t).1.speed, jump := none, marks := (x.moved t).1.marks
    stopReached := (x.moved t).1.stopReached } := by
  rcases h : x.jumpTarget with ⟨_ | target, marks⟩
  · rw [moved_move h]; rfl
  · rw [moved_jump h]; rfl

/-- The rows left below a position (R63). -/
def Sce.rowsBelow (x : Sce) (pos : Nat) : Nat := x.active.rows.length - 1 - pos / rowUnits

theorem runoutTest_eq (x : Sce) : x.runoutTest =
    ({ x with runoutFlag := decide (x.rowsBelow x.pos ≤ x.runout) },
      if x.rowsBelow x.pos ≤ x.runout ∧ x.runoutFlag = false then [.runout (x.rowsBelow x.pos) (x.pos / rowUnits) x.runout] else []) := by
  unfold Sce.runoutTest runoutStep Sce.rowsBelow Sce.row
  by_cases h : x.active.rows.length - 1 - x.pos / rowUnits ≤ x.runout <;> cases hx : x.runoutFlag <;> simp [h]

/-- What a step leaves of the engine, by its jump and motion parts (R53, R61, R63). -/
theorem step_sce (x : Sce) (t : Int) : (x.step t).1 = { x with
    pos := (x.moved t).1.pos, speed := (x.moved t).1.speed, jump := none, marks := (x.moved t).1.marks
    stopReached := (x.moved t).1.testStop.stopReached
    runoutFlag := decide (x.rowsBelow (x.moved t).1.pos ≤ x.runout) } := by
  rw [step_eq, runoutTest_eq, testStop_eq, moved_eq]
  rfl

theorem step_events (x : Sce) (t : Int) : (x.step t).2.1 = (x.moved t).2.1 ++
    if x.rowsBelow (x.moved t).1.pos ≤ x.runout ∧ x.runoutFlag = false
    then [.runout (x.rowsBelow (x.moved t).1.pos) ((x.moved t).1.pos / rowUnits) x.runout] else [] := by
  rw [step_eq, runoutTest_eq, testStop_eq, moved_eq]
  rfl

theorem stepTaken_false (x : Helm) : x.stepTaken false = { x with cleared := false } := by
  simp [Helm.stepTaken]

theorem takeLateShare_none {s : State} (h : s.sru.helmShare = false) : takeLateShare s = s := if_neg (by simp [h])

/-- The state in which the scroll engine has the boundary no longer to take (R53). -/
def stepTaking (s : State) : State := s.withFtu { s.ftu with due := { s.ftu.due with sce := false } }

/-- The engine as the step of a boundary finds it (R51). -/
abbrev loaded (s : State) : Sce := s.sce.load s.sru.set

theorem afterInstall_plain {s : State} (h : s.rwk.phase ≠ .offered) : afterInstall s = s.withSce (loaded s) := if_neg h

theorem frameStep_of_rows {s : State} (h : rowCount (afterInstall s) ≠ 0) : frameStep s =
    raiseAll (((afterInstall s).withSce ((afterInstall s).sce.step (helmTargetWith s.sce.speedLimit (afterInstall s))).1).withHelm
      ((afterInstall s).helm.stepTaken ((afterInstall s).sce.step (helmTargetWith s.sce.speedLimit (afterInstall s))).2.2))
      ((afterInstall s).sce.step (helmTargetWith s.sce.speedLimit (afterInstall s))).2.1 := if_neg h

theorem frameStep_of_no_rows {s : State} (h : rowCount (afterInstall s) = 0) : frameStep s =
    ((afterInstall s).withSce (afterInstall s).sce.emptyStep).withHelm ((afterInstall s).helm.stepTaken false) := if_pos h

/-- What the jump and motion parts of a step on the map as it stands come to (R54 to R62). -/
abbrev movedOf (s : State) : Sce × List Event × Bool := (loaded s).moved (helmTarget s)

/-- The state a step leaves that has nothing to install, on a map that has rows, before the arbiter acts (R53). -/
def stepped (s : State) : State :=
  raiseAll (((stepTaking s).withSce ((loaded s).step (helmTarget s)).1).withHelm (s.helm.stepTaken (movedOf s).2.2))
    ((loaded s).step (helmTarget s)).2.1

theorem frameStep_plain {s : State} (ho : s.rwk.phase ≠ .offered) (hrows : s.sce.active.rows ≠ []) :
    frameStep (stepTaking s) = stepped s := by
  have hi : afterInstall (stepTaking s) = (stepTaking s).withSce (loaded s) := afterInstall_plain (s := stepTaking s) ho
  have hl : rowCount (afterInstall (stepTaking s)) ≠ 0 := by
    rw [hi]
    simpa [rowCount, Sce.load] using hrows
  rw [frameStep_of_rows hl, hi]
  rfl

/-- The state a step leaves that has nothing to install, on a map of 0 rows (R53). -/
def steppedEmpty (s : State) : State :=
  ((stepTaking s).withSce (loaded s).emptyStep).withHelm { s.helm with cleared := false }

theorem frameStep_empty {s : State} (ho : s.rwk.phase ≠ .offered) (hrows : s.sce.active.rows = []) :
    frameStep (stepTaking s) = steppedEmpty s := by
  have hi : afterInstall (stepTaking s) = (stepTaking s).withSce (loaded s) := afterInstall_plain (s := stepTaking s) ho
  have hl : rowCount (afterInstall (stepTaking s)) = 0 := by
    rw [hi]
    simpa [rowCount, Sce.load] using hrows
  rw [frameStep_of_no_rows hl, hi, stepTaken_false]
  rfl

theorem acts_stepped {s : State} (hr : stepReady s) (ho : s.rwk.phase ≠ .offered) (hrows : s.sce.active.rows ≠ []) :
    Acts s .frameStep false (stepped s) := by
  obtain ⟨h1, h2, h3, h4⟩ := hr
  have ha : Acts s .frameStep false (takeLateShare (frameStep (stepTaking s))) := .frameStep h1 h2 h3
  rw [frameStep_plain ho hrows, takeLateShare_none (by rw [stepped, raiseAll_sru_helmShare]; exact h4)] at ha
  exact ha

/-- What a step on the map as it stands leaves, by its jump and motion parts (R53, R61, R63). -/
theorem exec_frameStep {s : State} (hr : stepReady s) (ho : s.rwk.phase ≠ .offered) (hrows : s.sce.active.rows ≠ []) :
    ∃ t, exec .frameStep s = .next t ∧ onlyRaises [.sce, .ftu, .helm] ((movedOf s).2.1 ++ runoutRise s t) s t ∧ stepEnds s t ∧
      t.sce.pos = (movedOf s).1.pos ∧ t.sce.speed = (movedOf s).1.speed ∧ t.sce.marks = (movedOf s).1.marks ∧
      t.sce.active = s.sce.active ∧ t.sce.stopReached = (movedOf s).1.testStop.stopReached ∧
      t.helm = s.helm.stepTaken (movedOf s).2.2 := by
  have ha := acts_stepped hr ho hrows
  have hs : (arbitrate (stepped s)).sce = ((loaded s).step (helmTarget s)).1 := by
    rw [arbitrate_sce, stepped, raiseAll_sce]
    rfl
  have hf : (arbitrate (stepped s)).ftu = (stepTaking s).ftu := by
    rw [arbitrate_ftu, stepped, raiseAll_ftu]
    rfl
  rw [step_sce] at hs
  refine ⟨_, exec_of_acts ha, ?_, ?_, ?_, ?_, ?_, ?_, ?_, ?_⟩
  all_goals rw [finish, if_neg (by simp)]
  · have hw : Writes [.sce, .ftu, .helm] s (stepped s) :=
      ((((Writes.refl _ s).withFtu _ (by decide)).withSce _ (by decide)).withHelm _ (by decide)).raiseAll _
    have hrise : (movedOf s).2.1 ++ runoutRise s (arbitrate (stepped s)) = ((loaded s).step (helmTarget s)).2.1 := by
      rw [step_events, runoutRise, rowsLeft, rowCount, hs]
      rfl
    rw [hrise]
    refine hw.onlyRaises_arbitrate ?_
    rw [stepped, raiseAll_sru]
    simp only [acceptAll, raiseAll_ftu]
    rfl
  · refine ⟨?_, hf⟩
    rw [rowsLeft, rowCount, hs]
    rfl
  · rw [hs]
  · rw [hs]
  · rw [hs]
  · rw [hs]; rfl
  · rw [hs]
  · rw [arbitrate_helm, stepped, raiseAll_helm]
    rfl

/-- The stop-reached flag stays exactly where the read row is the recorded slot's at fraction 0 (R61). -/
theorem testStop_stopReached {x : Sce} (h : x.pos / rowUnits < x.active.rows.length) : x.testStop.stopReached =
    x.stopReached.filter (fun slot => slotAt x.active.rows (x.pos / rowUnits) == slot && x.pos % rowUnits == 0) := by
  have hrow : x.active.rows[x.row]? = some x.active.rows[x.pos / rowUnits] := List.getElem?_eq_getElem h
  have hslot : slotAt x.active.rows (x.pos / rowUnits) = x.active.rows[x.pos / rowUnits].slot := by
    simp [slotAt, h]
  unfold Sce.testStop
  cases hs : x.stopReached with
  | none => simp [hs]
  | some slot =>
    rw [hslot]
    dsimp only
    rw [hrow]
    simp only [Option.any_some, Option.filter_some]
    split <;> simp_all

/-- A step that takes no STOP row keeps the flags as R61 and R118 give them. -/
theorem stopKept_of {s t : State} (hh : t.helm = s.helm.stepTaken (movedOf s).2.2) (hs : t.sce.stopReached = (movedOf s).1.testStop.stopReached)
    (hp : t.sce.pos = (movedOf s).1.pos) (ha : t.sce.active = s.sce.active) (hn : (movedOf s).2.2 = false)
    (hkeep : (movedOf s).1.stopReached = s.sce.stopReached) (hrows : s.sce.active.rows ≠ []) (hle : t.sce.pos ≤ pMax s.sce.active.rows) :
    stopKept s t := by
  have hact : (movedOf s).1.active = s.sce.active := by rw [moved_eq]; rfl
  have hlt := row_lt_of_le_pMax hrows hle
  refine ⟨by rw [helmPassed, hh, hn, stepTaken_false], ?_⟩
  rw [hs, testStop_stopReached (by rw [hact, ← hp]; exact hlt), hkeep, hact, ha, hp]
  rfl

/-! ## Motion (R56 to R62) -/

theorem movedOf_move {s : State} (hj : s.sce.jump = none) : movedOf s = (loaded s).moveStep (helmTarget s) s.sce.marks :=
  moved_move (by simp [Sce.jumpTarget, Sce.load, hj])

theorem stopRow_eq_none {s : State} {pos : Nat} {new : Int} (h : ∀ i, ¬crosses s i pos new) : stopRow s.sce.active.rows pos new = none := by
  refine List.find?_eq_none.mpr fun i _ hi => h i ?_
  simp only [Bool.and_eq_true, decide_eq_true_eq, Option.any_eq_true, beq_iff_eq] at hi
  obtain ⟨⟨h1, h2⟩, r, hr, hk⟩ := hi
  exact ⟨h1, h2, r, hr, hk⟩

theorem stopRow_eq_some {s : State} {pos i : Nat} {new : Int} (h : crosses s i pos new) (hlow : ∀ j, j < i → ¬crosses s j pos new) :
    stopRow s.sce.active.rows pos new = some i := by
  have hc (j : Nat) : (decide (pos < rowUnits * j ∧ ((rowUnits * j : Nat) : Int) ≤ new) &&
      (s.sce.active.rows[j]?).any (fun r => r.kind == .stop)) = true ↔ crosses s j pos new := by
    simp only [Bool.and_eq_true, decide_eq_true_eq, Option.any_eq_true, beq_iff_eq, and_assoc, crosses]
    rfl
  have hlen : i < s.sce.active.rows.length := by
    obtain ⟨-, -, r, hr, -⟩ := h
    exact (List.getElem?_eq_some_iff.mp hr).1
  rw [stopRow, List.find?_range_eq_some]
  exact ⟨(hc i).mpr h, List.mem_range.mpr hlen, fun j hj => by rw [Bool.not_eq_true', ← Bool.not_eq_true, hc]; exact hlow j hj⟩

theorem moveBy_free {s : State} {pos : Nat} {v : Int} (hlo : 0 ≤ (pos : Int) + v) (hhi : (pos : Int) + v ≤ pMax s.sce.active.rows)
    (h : ∀ i, ¬crosses s i pos (pos + v)) : moveBy s.sce.active.rows pos v = ⟨((pos : Int) + v).toNat, v, none, []⟩ := by
  unfold moveBy
  rw [stopRow_eq_none h, ite_self]
  dsimp only
  rw [if_neg (by omega), if_neg (by omega)]

theorem moveBy_stop {s : State} {pos i : Nat} {v : Int} {r : Row} (hr : s.sce.active.rows[i]? = some r) (h : crosses s i pos (pos + v))
    (hlow : ∀ j, j < i → ¬crosses s j pos (pos + v)) :
    moveBy s.sce.active.rows pos v = ⟨rowUnits * i, 0, some r.slot, [.stopReached i r.slot r.story]⟩ := by
  have hv : 0 < v := by
    obtain ⟨h1, h2, -⟩ := h
    omega
  unfold moveBy
  rw [if_pos hv, stopRow_eq_some h hlow]
  simp [slotAt, hr]

theorem moveBy_top {rows : List Row} {pos : Nat} {v : Int} (h : (pos : Int) + v < 0) :
    moveBy rows pos v = ⟨0, 0, none, if pos = 0 then [] else [.topStop (slotAt rows 0) v]⟩ := by
  unfold moveBy
  rw [if_neg (by omega)]
  dsimp only
  rw [if_pos h]

theorem moveBy_end {s : State} {pos : Nat} {v : Int} (h : (pMax s.sce.active.rows : Int) < pos + v) (hn : ∀ i, ¬crosses s i pos (pos + v)) :
    moveBy s.sce.active.rows pos v = ⟨pMax s.sce.active.rows, 0, none,
      if pos = pMax s.sce.active.rows then [] else [.endStop (slotAt s.sce.active.rows (rowCount s - 1)) v]⟩ := by
  unfold moveBy
  rw [stopRow_eq_none hn, ite_self]
  dsimp only
  rw [if_neg (by omega), if_pos h]
  rfl

/-- A step without a jump, by what its motion comes to (R53, R59 to R62). -/
theorem exec_frameStep_move {s : State} (h : plainStep s) {m : Moved} (hm : moveBy s.sce.active.rows s.sce.pos (nextSpeed s) = m) :
    ∃ t, exec .frameStep s = .next t ∧ onlyRaises [.sce, .ftu, .helm] (m.events ++ runoutRise s t) s t ∧ stepEnds s t ∧
      t.sce.pos = m.pos ∧ t.sce.speed = m.speed ∧ t.sce.marks = s.sce.marks ∧ t.helm = s.helm.stepTaken m.stop.isSome ∧
      (m.stop = none → stopKept s t) ∧
      (∀ i r, m.stop = some r.slot → m.pos = 4096 * i → s.sce.active.rows[i]? = some r → t.sce.stopReached = some r.slot) := by
  obtain ⟨hr, ho, hrows, hj⟩ := h
  obtain ⟨t, he, hra, hends, hp, hv, hmk, hact, hst, hh⟩ := exec_frameStep hr ho hrows
  have hle : m.pos ≤ pMax s.sce.active.rows := hm ▸ moveBy_pos_le _ _
  have hmv : movedOf s = ({ loaded s with
      pos := m.pos, speed := m.speed, jump := none, marks := s.sce.marks
      stopReached := if m.stop.isSome then m.stop else s.sce.stopReached }, m.events, m.stop.isSome) := by
    rw [movedOf_move hj, ← hm]
    rfl
  rw [hmv] at hp hv hmk hra hh hst
  refine ⟨t, he, hra, hends, hp, hv, hmk, hh, fun hn => ?_, fun i r hs hpi hri => ?_⟩
  · refine stopKept_of (by rw [hmv]; exact hh) (by rw [hmv]; exact hst) (by rw [hmv]; exact hp) hact ?_ ?_ hrows (by rw [hp]; exact hle)
    · rw [hmv]; simp [hn]
    · rw [hmv]; simp [hn]
  · have hlen := (List.getElem?_eq_some_iff.mp hri).1
    have hdiv : m.pos / rowUnits = i := by rw [hpi, rowUnits]; omega
    rw [hst, testStop_stopReached (by dsimp only; rw [hdiv]; exact hlen)]
    dsimp only
    rw [hdiv, hs]
    have hslot : slotAt s.sce.active.rows i = r.slot := by simp [slotAt, hri]
    have hmod : m.pos % rowUnits = 0 := by rw [hpi, rowUnits]; omega
    simp [Sce.load, hslot, hmod]

/-- Settles O13. -/
theorem frameStepMoves : Obligations.FrameStepMoves := by
  refine ⟨fun s h hlo hhi hn => ?_, fun s hr ho hrows => ?_⟩
  · obtain ⟨t, he, hra, hends, hp, hv, hmk, -, hkept, -⟩ := exec_frameStep_move h (moveBy_free hlo hhi hn)
    exact ⟨t, he, hra, hends, hkept rfl, by rw [hp]; exact Int.toNat_of_nonneg hlo, hv, hmk⟩
  · obtain ⟨h1, h2, h3, h4⟩ := hr
    have ha : Acts s .frameStep false (takeLateShare (frameStep (stepTaking s))) := .frameStep h1 h2 h3
    rw [frameStep_empty ho hrows, takeLateShare_none (s := steppedEmpty s) h4] at ha
    obtain ⟨he, hc⟩ := ha.changes (bs := [.sce, .ftu, .helm])
      ((((Writes.refl _ s).withFtu _ (by decide)).withSce _ (by decide)).withHelm _ (by decide)) (.inr rfl)
    exact ⟨_, he, hc, by rw [helmPassed, arbitrate_helm]; rfl, by rw [arbitrate_sce]; rfl, by rw [arbitrate_ftu]; rfl⟩

/-- Settles O14. -/
theorem frameStepLimits : Obligations.FrameStepLimits := by
  refine ⟨fun s i r h hri hc hlow => ?_, fun s h htop => ?_, fun s h hend hn => ?_⟩
  · obtain ⟨t, he, hra, hends, hp, hv, hmk, hh, -, hst⟩ := exec_frameStep_move h (moveBy_stop hri hc hlow)
    refine ⟨t, he, hra, hends, hp, hv, hst i r rfl rfl hri, hmk, ?_⟩
    rw [hh]
    simp [Helm.stepTaken]
  · obtain ⟨t, he, hra, hends, hp, hv, hmk, -, hkept, -⟩ := exec_frameStep_move h (moveBy_top htop)
    exact ⟨t, he, hra, hends, hkept rfl, hp, hv, hmk⟩
  · obtain ⟨t, he, hra, hends, hp, hv, hmk, -, hkept, -⟩ := exec_frameStep_move h (moveBy_end hend hn)
    exact ⟨t, he, hra, hends, hkept rfl, hp, hv, hmk⟩

/-! ## Jumps (R55, R80 to R83) -/

/-- A step that has a target for its jump (R55). -/
theorem exec_frameStep_jump {s : State} (hr : stepReady s) (ho : s.rwk.phase ≠ .offered) (hrows : s.sce.active.rows ≠ [])
    {target : Nat} {marks : List Mark} (hj : (loaded s).jumpTarget = (some target, marks)) :
    ∃ t, exec .frameStep s = .next t ∧ onlyRaises [.sce, .ftu, .helm] (runoutRise s t) s t ∧ stepEnds s t ∧ stopKept s t ∧
      t.sce.pos = min target (pMax s.sce.active.rows) ∧ t.sce.speed = 0 ∧ t.sce.marks = marks := by
  obtain ⟨t, he, hra, hends, hp, hv, hmk, hact, hst, hh⟩ := exec_frameStep hr ho hrows
  have hmv : movedOf s = ((loaded s).jumpTo target marks, [], false) := moved_jump hj
  have hp' : t.sce.pos = min target (pMax s.sce.active.rows) := by rw [hp, hmv]; rfl
  refine ⟨t, he, ?_, hends, ?_, hp', ?_, ?_⟩
  · rw [hmv] at hra
    exact hra
  · exact stopKept_of hh hst hp hact (by rw [hmv]) (by rw [hmv]; rfl) hrows (by rw [hp']; exact Nat.min_le_right _ _)
  · rw [hv, hmv]; rfl
  · rw [hmk, hmv]; rfl

theorem indexOfSlot_eq_some {rows : List Row} {k slot : Nat} (h : firstIndex rows slot k) : indexOfSlot rows slot = some k := by
  obtain ⟨⟨r, hr, hs⟩, hfirst⟩ := h
  obtain ⟨hlen, hget⟩ := List.getElem?_eq_some_iff.mp hr
  rw [indexOfSlot, List.findIdx?_eq_some_iff_getElem]
  refine ⟨hlen, by simp [hget, hs], fun j hj => ?_⟩
  simpa using hfirst j _ hj (List.getElem?_eq_getElem (hj.trans hlen))

theorem firstIndex_of_nodup {rows : List Row} {k slot : Nat} {r : Row} (hn : (rows.map (·.slot)).Nodup) (hr : rows[k]? = some r)
    (hs : r.slot = slot) : firstIndex rows slot k := by
  refine ⟨⟨r, hr, hs⟩, fun j q hj hq hqs => ?_⟩
  obtain ⟨hk, hgk⟩ := List.getElem?_eq_some_iff.mp hr
  obtain ⟨hj', hgj⟩ := List.getElem?_eq_some_iff.mp hq
  have : j = k := (List.Nodup.getElem_inj_iff hn (hi := by simpa using hj') (hj := by simpa using hk)).mp (by simp [hgk, hgj, hs, hqs])
  omega

/-- Settles O15. -/
theorem jumpResolved : Obligations.JumpResolved := by
  refine ⟨fun s j target hr ho hrows hj ht => ?_, fun s older m k r hr ho hj hm hnd hk hs => ?_, fun s ho hrows hj hm hd hh he => ?_⟩
  · refine exec_frameStep_jump hr ho hrows ?_
    rcases ht with ⟨rfl, rfl⟩ | ⟨rfl, rfl⟩
    · simp [Sce.jumpTarget, Sce.load, hj, Sce.row, rowUnits]
    · simp [Sce.jumpTarget, Sce.load, hj, Sce.row, rowUnits]
  · have hrows : s.sce.active.rows ≠ [] := fun h => by rw [h] at hk; cases hk
    refine exec_frameStep_jump hr ho hrows (target := 4096 * k + m.fraction) ?_
    have hi := indexOfSlot_eq_some (firstIndex_of_nodup hnd hk hs)
    simp [Sce.jumpTarget, Sce.load, hj, hm, hi, rowUnits]
  · have hs : (loaded s).step (helmTarget s) = (loaded (s.withSce { s.sce with jump := none })).step (helmTarget s) := by
      rw [step_eq, step_eq, moved_move (x := loaded s) (marks := s.sce.marks) (by simp [Sce.jumpTarget, Sce.load, hj, hm]),
        moved_move (x := loaded (s.withSce { s.sce with jump := none })) (marks := s.sce.marks) rfl]
      rfl
    have hst : stepped s = stepped (s.withSce { s.sce with jump := none }) := by
      unfold stepped movedOf
      have hm2 : ((loaded s).moved (helmTarget s)).2.2 = ((loaded (s.withSce { s.sce with jump := none })).moved (helmTarget s)).2.2 :=
        congrArg (·.2.2) hs
      rw [hs, hm2]
      rfl
    have h1 : Acts s .frameStep false (takeLateShare (frameStep (stepTaking s))) := .frameStep hd hh he
    have h2 : Acts (s.withSce { s.sce with jump := none }) .frameStep false
        (takeLateShare (frameStep (stepTaking (s.withSce { s.sce with jump := none })))) := .frameStep hd hh he
    rw [frameStep_plain ho hrows] at h1
    rw [frameStep_plain (s := s.withSce { s.sce with jump := none }) ho hrows, ← hst] at h2
    exact (exec_of_acts h1).trans (exec_of_acts h2).symm

end Sys2Proof.Machine

/-! The anchor of an installation, the mark list, and what else may write the position and the frame counter (R49, R64 to R67, R75,
R135). -/

namespace Sys2Proof.Machine

open Sys2Proof.Config

/-! ## The anchor (R64 to R67) -/

theorem indexOfSlot_of_absent {rows : List Row} {slot : Nat} (h : absent rows slot) : indexOfSlot rows slot = none :=
  List.findIdx?_eq_none_iff.mpr fun r hr => by simpa using h r hr

/-- The first row that survives is the one that all before it do not (R66, R67). -/
theorem firstSurvivor_at {new : List Row} {j : Nat} {r : Row} (hj : firstIndex new r.slot j) {l : List Row} {n : Nat}
    (hr : l[n]? = some r) (hb : ∀ (m : Nat) (q : Row), m < n → l[m]? = some q → absent new q.slot) :
    firstSurvivor new l = some (r.slot, j) := by
  induction l generalizing n with
  | nil => cases hr
  | cons x rest ih =>
    cases n with
    | zero =>
      obtain rfl : x = r := Option.some.inj hr
      simp [firstSurvivor, indexOfSlot_eq_some hj]
    | succ n =>
      rw [firstSurvivor, indexOfSlot_of_absent (hb 0 x (Nat.succ_pos n) rfl)]
      exact ih hr fun m q hm hq => hb (m + 1) q (Nat.succ_lt_succ hm) hq

theorem firstSurvivor_none {new l : List Row} (h : ∀ q ∈ l, absent new q.slot) : firstSurvivor new l = none := by
  induction l with
  | nil => rfl
  | cons x rest ih =>
    rw [firstSurvivor, indexOfSlot_of_absent (h x List.mem_cons_self)]
    exact ih fun q hq => h q (List.mem_cons_of_mem _ hq)

/-- The old rows in the order in which a survivor is looked for: after the anchor's row, then before it (R66, R67). -/
def survivorOrder (old : List Row) (i : Nat) : List Row := old.drop (i + 1) ++ (old.take i).reverse

theorem survivorOrder_after {old : List Row} {i m : Nat} (h : m < old.length - (i + 1)) :
    (survivorOrder old i)[m]? = old[i + 1 + m]? := by
  rw [survivorOrder, List.getElem?_append_left (by simpa using h), List.getElem?_drop]

theorem survivorOrder_before {old : List Row} {i m : Nat} (hi : i < old.length) (h : m < i) :
    (survivorOrder old i)[old.length - (i + 1) + m]? = old[i - 1 - m]? := by
  rw [survivorOrder, List.getElem?_append_right (by simp), List.length_drop, Nat.add_sub_cancel_left,
    List.getElem?_reverse (by simp; omega), List.length_take, List.getElem?_take_of_lt (by omega), Nat.min_eq_left (by omega)]

theorem mem_of_mem_survivorOrder {old : List Row} {i : Nat} {q : Row} (h : q ∈ survivorOrder old i) : q ∈ old :=
  (List.mem_append.mp h).elim List.mem_of_mem_drop fun h => List.mem_of_mem_take (List.mem_reverse.mp h)

theorem resolveAnchor_absent {old new : List Row} {pos : Nat} {a : Row} (ha : old[pos / 4096]? = some a) (h : absent new a.slot) :
    resolveAnchor old new pos =
      match firstSurvivor new (survivorOrder old (pos / 4096)) with
      | some (slot, j) => (4096 * j, [.anchorMoved a.slot slot j])
      | none => (0, [.anchorLost a.slot (pos / 4096)]) := by
  have ha' : old[pos / rowUnits]? = some a := ha
  simp only [resolveAnchor, ha', indexOfSlot_of_absent h]
  rfl

/-- Settles O17. -/
theorem anchorRule : Obligations.AnchorRule := by
  refine fun old new pos => ⟨fun h => by simp [resolveAnchor, h], fun a ha => ⟨fun j hj => ?_, fun k r j hab hk hr hj hb => ?_,
    fun k r j hab hk hr hj hb => ?_, fun hn => ?_⟩⟩
  · have ha' : old[pos / rowUnits]? = some a := ha
    simp only [resolveAnchor, ha', indexOfSlot_eq_some hj]
    rfl
  · have hlen := (List.getElem?_eq_some_iff.mp hr).1
    rw [resolveAnchor_absent ha hab, firstSurvivor_at hj (n := k - (pos / 4096 + 1))]
    · rw [survivorOrder_after (by omega), ← hr]
      congr 1
      omega
    · intro m q hm hq
      rw [survivorOrder_after (by omega)] at hq
      exact hb _ q (by omega) (by omega) hq
  · have hlen := (List.getElem?_eq_some_iff.mp ha).1
    rw [resolveAnchor_absent ha hab, firstSurvivor_at hj (n := old.length - (pos / 4096 + 1) + (pos / 4096 - 1 - k))]
    · rw [survivorOrder_before hlen (by omega), ← hr]
      congr 1
      omega
    · intro m q hm hq
      by_cases hlow : m < old.length - (pos / 4096 + 1)
      · rw [survivorOrder_after hlow] at hq
        exact hb _ q (by omega) hq
      · obtain ⟨d, rfl⟩ := Nat.exists_eq_add_of_le (Nat.not_lt.mp hlow)
        rw [survivorOrder_before hlen (by omega)] at hq
        exact hb _ q (by omega) hq
  · have hnone : firstSurvivor new (survivorOrder old (pos / 4096)) = none := firstSurvivor_none fun q hq => by
      obtain ⟨m, hm⟩ := List.getElem?_of_mem (mem_of_mem_survivorOrder hq)
      exact hn m q hm
    rw [resolveAnchor_absent ha (hn _ a ha), hnone]

/-! ## Marks (R74 to R76) -/

theorem setMark_room {x : Sce} {l : Link} {f : Half}
    (h : (x.marks.filter (fun m => m.slot != slotAt x.active.rows x.row)).length < 8) :
    x.setMark l f = ({ x with marks := x.marks.filter (fun m => m.slot != slotAt x.active.rows x.row) ++
      [⟨slotAt x.active.rows x.row, x.pos % rowUnits, l, f⟩] }, []) := if_pos h

theorem setMark_full {x : Sce} {l : Link} {f : Half} {oldest : Mark} {others : List Mark}
    (hk : x.marks.filter (fun m => m.slot != slotAt x.active.rows x.row) = oldest :: others)
    (h : 8 ≤ (x.marks.filter (fun m => m.slot != slotAt x.active.rows x.row)).length) :
    x.setMark l f = ({ x with marks := others ++ [⟨slotAt x.active.rows x.row, x.pos % rowUnits, l, f⟩] },
      [.markDropped oldest.slot oldest.owner oldest.frame]) := by
  unfold Sce.setMark
  dsimp only
  rw [if_neg (by unfold markCapacity; omega), hk]
  rfl

/-- Settles O19. -/
theorem markSet : Obligations.MarkSet := by
  refine ⟨fun s l q rest hf hr => ?_, fun s l f rest hf ha hn => ?_⟩
  · have ha := Acts.mark hf rfl rfl hr
    have hs : (arbitrate (raiseAll ((afterFired s l rest).withSce (s.sce.setMark l (engineFrame s)).1)
        (s.sce.setMark l (engineFrame s)).2)).sce = (s.sce.setMark l (engineFrame s)).1 := by
      rw [arbitrate_sce, raiseAll_sce]
      rfl
    refine ⟨_, exec_of_acts ha, ?_, fun hk => ?_, fun oldest others hk h8 => ?_⟩ <;> rw [finish, if_neg (by simp)]
    · rw [firedTaken, arbitrate_hlr, raiseAll_hlr]
      rfl
    · rw [hs]
      have hm := setMark_room (x := s.sce) (l := l) (f := engineFrame s) hk
      refine ⟨(acts_writes ha).onlyChanges_arbitrate (.inr ?_), by rw [hm]; rfl⟩
      rw [hm]
      rfl
    · rw [hs]
      have hm := setMark_full (x := s.sce) (l := l) (f := engineFrame s) hk h8
      refine ⟨(acts_writes ha).onlyRaises_arbitrate ?_, by rw [hm]; rfl⟩
      rw [hm]
      rfl
  · have hact := Acts.markIgnored hf ha hn
    rw [ha] at *
    obtain ⟨he, hc⟩ := hact.changes (bs := [.hlr]) (writes_afterFired s l rest) (.inr rfl)
    exact ⟨_, he, hc, by rw [firedTaken, arbitrate_hlr]; rfl⟩

/-! ## What writes the position and the frame counter (R49, R50, R135) -/

theorem lock_frame (x : Ftu) (n now : Nat) :
    (x.lock n now).frame = x.frame ∨ ((x.lock n now).frame = x.frame + 1 ∧ (x.lock n now).due = allDue) := by
  unfold Ftu.lock
  dsimp only
  split
  · exact .inr ⟨rfl, rfl⟩
  · exact .inl rfl

/-- A pulse leaves the frame counter, or makes a boundary (R130 to R133, R135). -/
theorem pulse_frame (x : Ftu) (n : Nat) :
    (x.pulse n).1.frame = x.frame ∨ ((x.pulse n).1.frame = x.frame + 1 ∧ (x.pulse n).1.due = allDue) := by
  unfold Ftu.pulse
  cases x.sync with
  | substitute => exact .inl rfl
  | acquiring =>
    dsimp only
    generalize (if inRange x.nominal (interval x.micros x.prevPulse) then x.goodCount + 1 else 0) = count
    split
    · exact lock_frame { x with
        sync := .acquiring, lastPeriod := interval x.micros x.prevPulse, prevPulse := x.micros, goodCount := count } n x.micros
    · exact .inl rfl
  | locked =>
    dsimp only
    split
    · exact .inr ⟨rfl, rfl⟩
    · exact .inl rfl

/-- Bytes that bring the microsecond count leave the frame counter (R127). -/
theorem bytes_frame {f : State → RxByte → State} {bs : List Block} (hf : ∀ s b, Writes bs s (f s b)) (hb : Block.ftu ∉ bs)
    (bytes : List RxByte) (s : State) :
    (bytes.foldl (fun s b => f (s.withFtu (s.ftu.reach b.time)) b) s).ftu.frame = s.ftu.frame := by
  induction bytes generalizing s with
  | nil => rfl
  | cons b rest ih =>
    rw [List.foldl_cons, ih, (hf _ b).ftu hb]
    rfl

theorem handBytes_frame (l : Link) (bytes : List RxByte) (s : State) : (handBytes l bytes s).ftu.frame = s.ftu.frame := by
  unfold handBytes
  split
  · exact bytes_frame (writes_handByte l) (by decide) bytes s
  · rfl

/-- A command short of a master reset leaves the frame counter, or makes a boundary that each block has to take (R135). -/
theorem acts_frame {c : Instr} {b : Bool} {s u : State} (h : Acts s c b u) (hc : ¬mayReset c) :
    u.ftu.frame = s.ftu.frame ∨ (u.ftu.frame = s.ftu.frame + 1 ∧ u.ftu.due = allDue ∧
      (c = .substituteExpiry ∨ c = .overdueDeadline ∨ ∃ now, c = .fsyncPulse now)) := by
  have hw := acts_writes h
  cases h with
  | powerOn | masterReset | initialisation | resetPinRise => exact absurd trivial hc
  | substituteExpiry => exact .inr ⟨rfl, rfl, .inl rfl⟩
  | overdueDeadline => exact .inr ⟨rfl, rfl, .inr (.inl rfl)⟩
  | fsyncPulse now =>
    rw [raiseAll_ftu]
    exact (pulse_frame (s.ftu.reach now) _).imp_right fun ⟨hf, hd⟩ => ⟨hf, hd, .inr (.inr ⟨now, rfl⟩)⟩
  | powerGood =>
    left
    unfold initIfReady
    split <;> rfl
  | initEnd | msTick | curveLoad => exact .inl rfl
  | ehuBoundary => exact .inl (by rw [raiseAll_ftu]; rfl)
  | frameStep =>
    left
    rw [(writes_takeLateShare _).ftu (by simp), (writes_frameStep _).ftu (by simp)]
    rfl
  | hltFrame k =>
    left
    rw [(writes_hltFrame _ k).ftu (by simp)]
    rfl
  | headAck k => exact .inl (bytes_frame (writes_ackByte k) (by decide) _ s)
  | statusSnapshot =>
    left
    rw [(writes_takeSnapshot _).ftu (by simp)]
    rfl
  | handReport | byteGap | framingError => exact .inl (handBytes_frame _ _ s)
  | _ => exact .inl (congrArg Ftu.frame (hw.ftu (by simp)))

theorem finish_ftu (b : Bool) (u : State) : (finish b u).ftu = u.ftu := by
  cases b
  · exact arbitrate_ftu u
  · exact (arbitrate_ftu _).trans ((writes_takePresented u).ftu (by simp))

theorem finish_sce (b : Bool) (u : State) : (finish b u).sce = u.sce := by
  cases b
  · exact arbitrate_sce u
  · exact (arbitrate_sce _).trans (takePresented_sce u)

/-- The engine has moved neither the position nor the map (R49). -/
def StandsAs (x y : Sce) : Prop := y.pos = x.pos ∧ y.speed = x.speed ∧ y.active = x.active

theorem acts_stands {c : Instr} {b : Bool} {s u : State} (h : Acts s c b u) (hc : ¬mayReset c) (hf : c ≠ .frameStep)
    (hr : ∀ late, c ≠ .runReset late) : StandsAs s.sce u.sce := by
  have hw := acts_writes h
  cases h with
  | powerOn | masterReset | initialisation | resetPinRise => exact absurd trivial hc
  | frameStep => exact absurd rfl hf
  | runReset | runResetIgnored => exact absurd rfl (hr _)
  | mark =>
    rw [raiseAll_sce, State.withSce_sce, setMark_rest]
    exact ⟨rfl, rfl, rfl⟩
  | markIgnored => exact ⟨rfl, rfl, rfl⟩
  | returnMark | nextStory | prevStory =>
    rw [jumpAction_rest]
    exact ⟨rfl, rfl, rfl⟩
  | _ =>
    rw [hw.sce (by simp)]
    exact ⟨rfl, rfl, rfl⟩

/-- Settles O21. -/
theorem positionAndFrameWriters : Obligations.PositionAndFrameWriters := by
  refine ⟨fun c s t hc hf hr he => ?_, fun c s t hc he => ?_⟩
  · rcases exec_inv he with rfl | ⟨b, u, hu, rfl⟩
    · exact ⟨rfl, rfl, rfl⟩
    · rw [finish_sce]
      exact acts_stands hu hc hf hr
  · rcases exec_inv he with rfl | ⟨b, u, hu, rfl⟩
    · exact .inl rfl
    · rw [finish_ftu]
      exact acts_frame hu hc

end Sys2Proof.Machine

/-! The frame step that installs an offered map (R19, R64 to R69, R84). -/

namespace Sys2Proof.Machine

open Sys2Proof.Config

theorem acceptAll_append (x : Sru) (t : State) (es fs : List Event) :
    acceptAll x t (es ++ fs) = acceptAll (acceptAll x t es) t fs := List.foldl_append

theorem acceptAll_congr {t u : State} (h : u.ftu = t.ftu) (x : Sru) (es : List Event) : acceptAll x u es = acceptAll x t es := by
  simp [acceptAll, h]

/-! ## The engine's part -/

/-- A mark stays exactly where its slot is a row of the new map (R84). -/
theorem survives_eq (rows : List Row) : Mark.survives rows = fun m => (rows.map (·.slot)).contains m.slot := by
  funext m
  rw [Mark.survives, indexOfSlot, List.findIdx?_isSome, List.contains_eq_any_beq, List.any_map]
  congr 1
  funext r
  exact BEq.comm

theorem install_eq (x : Sce) (new : Bank) : (x.install new).1 = { x with
    pos := min (resolveAnchor x.active.rows new.rows x.pos).1 (pMax new.rows)
    speed := if new.rows.isEmpty then 0 else x.speed
    marks := x.marks.filter (Mark.survives new.rows)
    active := new
    relinks := x.relinks + 1
    stopReached := (x.install new).1.stopReached } := testStop_eq _

theorem install_stopReached {x : Sce} {new : Bank} (h : new.rows ≠ []) : (x.install new).1.stopReached =
    x.stopReached.filter (fun slot =>
      slotAt new.rows (min (resolveAnchor x.active.rows new.rows x.pos).1 (pMax new.rows) / rowUnits) == slot &&
      min (resolveAnchor x.active.rows new.rows x.pos).1 (pMax new.rows) % rowUnits == 0) :=
  testStop_stopReached (row_lt_of_le_pMax h (Nat.min_le_right _ _))

/-- The engine after the load and the installation of a step (R51, R64). -/
def installedSce (s : State) : Sce := ((loaded s).install s.rwk.bank).1

/-- What an installation raises (R66, R67, R84, R20). -/
def installEvents (s : State) : List Event :=
  (resolveAnchor s.sce.active.rows s.rwk.bank.rows s.sce.pos).2 ++ lostMarks s.rwk.bank.rows s.sce.marks ++
    [.relinkDone s.rwk.bank.rows.length s.rwk.bank.stories s.rwk.bank.faults s.rwk.bank.discards]

/-- The state in which a step has installed its map and not yet moved (R53). -/
def mapInstalled (s : State) : State := afterInstall (stepTaking s)

section
variable {s : State} (ho : s.rwk.phase = .offered)
include ho

theorem mapInstalled_eq : mapInstalled s =
    recomputeOnAir (raiseAll (((stepTaking s).withSce (installedSce s)).withRwk (s.rwk.installed s.sce.active)) (installEvents s)) :=
  if_pos ho

theorem mapInstalled_sce : (mapInstalled s).sce = installedSce s := by rw [mapInstalled_eq ho]; simp
theorem mapInstalled_rwk : (mapInstalled s).rwk = s.rwk.installed s.sce.active := by rw [mapInstalled_eq ho]; simp
theorem mapInstalled_helm : (mapInstalled s).helm = s.helm := by rw [mapInstalled_eq ho]; simp [stepTaking]
theorem mapInstalled_hlr : (mapInstalled s).hlr = s.hlr := by rw [mapInstalled_eq ho]; simp [stepTaking]
theorem mapInstalled_ftu : (mapInstalled s).ftu = (stepTaking s).ftu := by rw [mapInstalled_eq ho]; simp
theorem mapInstalled_set : (mapInstalled s).sru.set = s.sru.set := by rw [mapInstalled_eq ho]; simp [stepTaking]

theorem mapInstalled_sru : (mapInstalled s).sru = acceptAll s.sru (stepTaking s) (installEvents s) := by
  rw [mapInstalled_eq ho, recomputeOnAir_sru, raiseAll_sru]
  rfl

theorem mapInstalled_ehu : (mapInstalled s).ehu = s.ehu.recompute (onAirList (liveRoutes s.hlt) s.sru.set.guardBand s.rwk.bank.rows
    (min (resolveAnchor s.sce.active.rows s.rwk.bank.rows s.sce.pos).1 (pMax s.rwk.bank.rows) / 4096)) := by
  rw [mapInstalled_eq ho]
  simp only [recomputeOnAir, State.withEhu_ehu, raiseAll_ehu, raiseAll_hlt, raiseAll_sce, raiseAll_sru_set, State.withRwk_ehu,
    State.withRwk_hlt, State.withRwk_sce, State.withSce_ehu, State.withSce_hlt, State.withSce_sce, State.withRwk_sru, State.withSce_sru]
  rw [installedSce, install_eq]
  rfl

theorem rowCount_mapInstalled : rowCount (mapInstalled s) = s.rwk.bank.rows.length := by
  rw [rowCount, mapInstalled_sce ho, installedSce, install_active]

theorem writes_mapInstalled : Writes [.sce, .ftu, .rwk, .ehu] s (mapInstalled s) := by
  rw [mapInstalled_eq ho]
  exact (((((Writes.refl _ s).withFtu _ (by decide)).withSce _ (by decide)).withRwk _ (by decide)).raiseAll _).step
    (writes_recomputeOnAir _) (by decide)

end

/-! ## The step that follows -/

/-- What a step that installs comes to before the arbiter acts (R53). -/
def installStepped (s : State) : State := frameStep (stepTaking s)

/-- The state on which the installed map's own step works: the map active, the position re-anchored, the lost marks gone and the
stop flag tested (R53, R61, R64, R84). -/
def installedState (s : State) : State :=
  (s.withRwk { s.rwk with phase := .idle }).withSce { s.sce with
    active := s.rwk.bank
    pos := min (resolveAnchor s.sce.active.rows s.rwk.bank.rows s.sce.pos).1 (pMax s.rwk.bank.rows)
    marks := s.sce.marks.filter (Mark.survives s.rwk.bank.rows)
    relinks := s.sce.relinks + 1
    stopReached := s.sce.stopReached.filter (fun slot =>
      slotAt s.rwk.bank.rows (min (resolveAnchor s.sce.active.rows s.rwk.bank.rows s.sce.pos).1 (pMax s.rwk.bank.rows) / 4096) == slot &&
      min (resolveAnchor s.sce.active.rows s.rwk.bank.rows s.sce.pos).1 (pMax s.rwk.bank.rows) % 4096 == 0) }

theorem loaded_installedState {s : State} (h : s.rwk.bank.rows ≠ []) : loaded (installedState s) = installedSce s := by
  rw [installedSce, install_eq, install_stopReached h]
  simp [installedState, Sce.load, h, rowUnits]

/-- The target HELM presents looks at HELM, the receivers, the settings and the number of rows only (R123). -/
theorem helmTargetWith_congr {s u : State} {limit : Nat} (hh : u.helm = s.helm) (hl : u.hlr = s.hlr) (hs : u.sru.set = s.sru.set)
    (hr : rowCount u = rowCount s) : helmTargetWith limit u = helmTargetWith limit s := by
  simp only [helmTargetWith, steering, hh, hl, hs, hr]

section
variable {s : State} (ho : s.rwk.phase = .offered)
include ho

theorem target_installed : helmTargetWith s.sce.speedLimit (mapInstalled s) = helmTarget (installedState s) :=
  helmTargetWith_congr (mapInstalled_helm ho) (mapInstalled_hlr ho) (mapInstalled_set ho) (rowCount_mapInstalled ho)

/-- With rows, the step goes on as that of the installed map does (R53). -/
theorem installStepped_rows (h : s.rwk.bank.rows ≠ []) : installStepped s =
    raiseAll (((mapInstalled s).withSce (stepped (installedState s)).sce).withHelm (stepped (installedState s)).helm)
      ((loaded (installedState s)).step (helmTarget (installedState s))).2.1 := by
  have hr : rowCount (mapInstalled s) ≠ 0 := by
    rw [rowCount_mapInstalled ho]
    simpa using h
  rw [installStepped, frameStep_of_rows hr]
  rw [show (stepTaking s).sce.speedLimit = s.sce.speedLimit from rfl, ← mapInstalled, target_installed ho, mapInstalled_sce ho,
    mapInstalled_helm ho, ← loaded_installedState h, stepped, raiseAll_sce, raiseAll_helm]
  rfl

theorem installStepped_empty (h : s.rwk.bank.rows = []) : installStepped s =
    ((mapInstalled s).withSce (installedSce s).emptyStep).withHelm { s.helm with cleared := false } := by
  have hr : rowCount (mapInstalled s) = 0 := by
    rw [rowCount_mapInstalled ho, h]
    rfl
  rw [installStepped, frameStep_of_no_rows hr, ← mapInstalled, mapInstalled_sce ho, mapInstalled_helm ho, stepTaken_false]

theorem writes_installStepped : Writes [.sce, .helm] (mapInstalled s) (installStepped s) := by
  by_cases h : s.rwk.bank.rows = []
  · rw [installStepped_empty ho h]
    exact ((Writes.refl _ _).withSce _ (by decide)).withHelm _ (by decide)
  · rw [installStepped_rows ho h]
    exact (((Writes.refl _ _).withSce _ (by decide)).withHelm _ (by decide)).raiseAll _

theorem installStepped_ftu : (installStepped s).ftu = (stepTaking s).ftu :=
  ((writes_installStepped ho).ftu (by decide)).trans (mapInstalled_ftu ho)

theorem writes_installStepped_all : Writes [.sce, .ftu, .rwk, .ehu, .helm] s (installStepped s) :=
  ((writes_mapInstalled ho).mono (by decide)).step (writes_installStepped ho) (by decide)

/-- The SRU's share of a step that installs, by the events of the step that follows (R202). -/
theorem installStepped_sru {es : List Event} (h : (installStepped s).sru = acceptAll (mapInstalled s).sru (installStepped s) es) :
    (installStepped s).sru = acceptAll s.sru (installStepped s) (installEvents s ++ es) := by
  rw [h, acceptAll_append, mapInstalled_sru ho, acceptAll_congr (installStepped_ftu ho) s.sru]

theorem installStepped_sru_rows (h : s.rwk.bank.rows ≠ []) : (installStepped s).sru = acceptAll s.sru (installStepped s)
    (installEvents s ++ ((loaded (installedState s)).step (helmTarget (installedState s))).2.1) := by
  refine installStepped_sru ho ?_
  rw [installStepped_rows ho h, raiseAll_sru, acceptAll_congr (raiseAll_ftu ..)]
  rfl

theorem installStepped_sru_empty (h : s.rwk.bank.rows = []) :
    (installStepped s).sru = acceptAll s.sru (installStepped s) (installEvents s) := by
  have hs := installStepped_sru ho (es := []) (by rw [installStepped_empty ho h]; rfl)
  rwa [List.append_nil] at hs

/-- Whatever the step then does, the map stays as installed (R69). -/
theorem installStepped_sce : (installStepped s).sce.active = s.rwk.bank ∧ (installStepped s).sce.relinks = s.sce.relinks + 1 ∧
    (s.sce.jump = none → (installStepped s).sce.marks = s.sce.marks.filter (Mark.survives s.rwk.bank.rows)) := by
  by_cases h : s.rwk.bank.rows = []
  · rw [installStepped_empty ho h, installedSce, install_eq]
    exact ⟨rfl, rfl, fun _ => rfl⟩
  · rw [installStepped_rows ho h, raiseAll_sce, State.withHelm_sce, State.withSce_sce, stepped, raiseAll_sce]
    refine ⟨step_active _ _, ?_, fun hj => ?_⟩
    · rw [State.withHelm_sce, State.withSce_sce, step_sce]
      rfl
    · rw [State.withHelm_sce, State.withSce_sce, step_marks, Sce.jumpTarget, show (loaded (installedState s)).jump = none from hj]
      rfl

theorem acts_installStepped (hr : stepReady s) : Acts s .frameStep false (installStepped s) := by
  obtain ⟨hsce, hhelm, hehu, hshare⟩ := hr
  have ha : Acts s .frameStep false (takeLateShare (installStepped s)) := .frameStep hsce hhelm hehu
  rwa [takeLateShare_none (((writes_installStepped_all ho).sru (by decide)).helmShare.trans hshare)] at ha

theorem onlyRaises_installStepped_rows (h : s.rwk.bank.rows ≠ []) : onlyRaises [.sce, .ftu, .rwk, .ehu, .helm]
    (installEvents s ++ ((loaded (installedState s)).step (helmTarget (installedState s))).2.1) s (arbitrate (installStepped s)) :=
  (writes_installStepped_all ho).onlyRaises_arbitrate (installStepped_sru_rows ho h)

theorem onlyRaises_installStepped_empty (h : s.rwk.bank.rows = []) :
    onlyRaises [.sce, .ftu, .rwk, .ehu, .helm] (installEvents s) s (arbitrate (installStepped s)) :=
  (writes_installStepped_all ho).onlyRaises_arbitrate (installStepped_sru_empty ho h)

end

/-- A step on the map as it stands raises what its parts do (R53). -/
theorem exec_stepped {s : State} (hr : stepReady s) (ho : s.rwk.phase ≠ .offered) (hrows : s.sce.active.rows ≠ []) :
    exec .frameStep s = .next (arbitrate (stepped s)) ∧
      onlyRaises [.sce, .ftu, .helm] ((loaded s).step (helmTarget s)).2.1 s (arbitrate (stepped s)) := by
  refine (acts_stepped hr ho hrows).raises
    (((((Writes.refl _ s).withFtu _ (by decide)).withSce _ (by decide)).withHelm _ (by decide)).raiseAll _) ?_
  rw [stepped, raiseAll_sru, acceptAll_congr (raiseAll_ftu ..)]
  rfl

/-- Settles O18. -/
theorem installationTaken : Obligations.InstallationTaken := by
  intro s hr ho
  obtain ⟨hact, hrelinks, hmarks⟩ := installStepped_sce ho
  have hw := writes_installStepped ho
  have hrwk : (installStepped s).rwk = s.rwk.installed s.sce.active := (hw.rwk (by decide)).trans (mapInstalled_rwk ho)
  refine ⟨_, exec_of_acts (acts_installStepped ho hr), ?_⟩
  rw [finish, if_neg (by simp), arbitrate_sce, arbitrate_ftu, arbitrate_ehu, arbitrate_rwk, arbitrate_helm, ← survives_eq]
  refine ⟨hact, hrelinks, installStepped_ftu ho, (hw.ehu (by decide)).trans (mapInstalled_ehu ho), fun hd => ?_, fun hd => ?_, ?_,
    fun he => ?_, hmarks, fun hne => ?_⟩
  · rw [hrwk]
    exact if_pos hd
  · rw [hrwk]
    exact if_neg hd
  · by_cases he : s.rwk.bank.rows = []
    · exact ⟨[], (List.append_nil (installEvents s)).symm ▸ onlyRaises_installStepped_empty ho he⟩
    · exact ⟨_, onlyRaises_installStepped_rows ho he⟩
  · refine ⟨onlyRaises_installStepped_empty ho he, ?_⟩
    rw [helmPassed, arbitrate_helm, installStepped_empty ho he]
    exact ⟨rfl, rfl, rfl, rfl, rfl, rfl⟩
  · obtain ⟨hx, hra⟩ := exec_stepped (s := installedState s) hr (by simp [installedState]) hne
    refine ⟨_, _, hx, hra, onlyRaises_installStepped_rows ho hne, ?_, ?_⟩
    · rw [arbitrate_sce, installStepped_rows ho hne, raiseAll_sce]
      rfl
    · rw [arbitrate_helm, installStepped_rows ho hne, raiseAll_helm]
      rfl

end Sys2Proof.Machine

/-! The rundown walker: the tests of a chain, the reads of a walk, its end and its start (R7 to R18). -/

namespace Sys2Proof.Machine

open Sys2Proof.Config

/-! ## The tests of a chain (R12) -/

theorem nextEntry_eq (x : Walker) (n i : Nat) :
    x.nextEntry n i = if i < 255 then { x with read := some (.entryWord (i + 1)) } else x.walkEnd n :=
  if_congr (by unfold entryCount; omega) rfl rfl

/-- A chain that ends in a fault, with what the walk goes on to (R12, R15). -/
theorem chainFault_eq (x : Walker) (n i story slot : Nat) (c : LinkFault) : x.chainFault n i story slot c =
    (if i < 255 then { x with bank := { x.bank with faults := x.bank.faults + 1 }, read := some (.entryWord (i + 1)) }
      else Walker.walkEnd { x with bank := { x.bank with faults := x.bank.faults + 1 } } n, [.linkFault story slot c]) := by
  rw [Walker.chainFault, nextEntry_eq]

/-- Settles O22. -/
theorem chainTests : Obligations.ChainTests := by
  intro x n i story slot placed
  unfold Walker.follow chainEnd slotCount
  refine ⟨fun h => ?_, fun hlo hhi => ?_, fun hlo hseen => ?_, fun hlo hseen => ?_⟩
  · rw [if_pos h, nextEntry_eq]
  · rw [if_neg (by omega), if_pos hlo, chainFault_eq]
  · rw [if_neg (by omega), if_neg (by omega), if_pos hseen, chainFault_eq]
  · rw [if_neg (by omega), if_neg (by omega), if_neg (by simp [hseen])]

/-! ## The reads of a walk (R10 to R14) -/

theorem rowKindOf_hidden {c : Byte} (h : c = 4) : rowKindOf c = none := by
  subst h
  rfl

theorem rowKindOf_shown {c : Byte} (h : c ≠ 4) :
    rowKindOf c = some (if c = 1 then .cue else if c = 2 then .gap else if c = 3 then .stop else .text) := by
  unfold rowKindOf
  split
  case h_1 h1 => rw [if_pos (BitVec.eq_of_toNat_eq h1)]
  case h_2 h2 =>
    obtain rfl : c = 2 := BitVec.eq_of_toNat_eq h2
    rfl
  case h_3 h3 =>
    obtain rfl : c = 3 := BitVec.eq_of_toNat_eq h3
    rfl
  case h_4 h4 => exact absurd (BitVec.eq_of_toNat_eq h4) h
  case h_5 h1 h2 h3 h4 =>
    have ne (k : Byte) (hk : c.toNat ≠ k.toNat) : c ≠ k := fun e => hk (congrArg BitVec.toNat e)
    rw [if_neg (ne 1 h1), if_neg (ne 2 h2), if_neg (ne 3 h3)]

section
variable {x : Walker} {n i story slot next : Nat} {placed : Bool} {w : Word}

theorem onRead_entryWord_empty (h : loHalf w = 0) : x.onRead n (.entryWord i) w = (x.nextEntry n i, []) := if_pos h

theorem onRead_entryWord (h : loHalf w ≠ 0) :
    x.onRead n (.entryWord i) w = ({ x with read := some (.entryFlags i (loHalf w) (hiHalf w)) }, []) := if_neg h

theorem onRead_entryFlags_skip (h : w.getLsbD 0 = true) : x.onRead n (.entryFlags i story slot) w = (x.nextEntry n i, []) := if_pos h

theorem onRead_entryFlags_dup (h : w.getLsbD 0 = false) (hq : ∃ q ∈ x.bank.rows, q.story = story) :
    x.onRead n (.entryFlags i story slot) w = (x.nextEntry n i, [.dupStory story i]) :=
  (if_neg (by simp only [skipFlag, h, Bool.false_eq_true, not_false_eq_true])).trans (if_pos (by simpa using hq))

theorem onRead_entryFlags_new (h : w.getLsbD 0 = false) (hq : ∀ q ∈ x.bank.rows, q.story ≠ story) :
    x.onRead n (.entryFlags i story slot) w = x.follow n i story slot false :=
  (if_neg (by simp only [skipFlag, h, Bool.false_eq_true, not_false_eq_true])).trans (if_neg (by simpa using hq))

theorem onRead_slotWord (h : loHalf w = story) :
    x.onRead n (.slotWord i story slot placed) w = ({ x with read := some (.slotKind i story slot (hiHalf w) placed) }, []) := if_pos h

theorem onRead_slotWord_foreign (h : loHalf w ≠ story) :
    x.onRead n (.slotWord i story slot placed) w = x.chainFault n i story slot .foreign := if_neg h

theorem onRead_slotKind_hidden (h : laneOf w 0 = 4) :
    x.onRead n (.slotKind i story slot next placed) w = (x.markSeen slot).follow n i story next placed := by
  simp only [Walker.onRead, rowKindOf_hidden h]

theorem onRead_slotKind_row {k : RowKind} (h : rowKindOf (laneOf w 0) = some k) (hl : x.bank.rows.length < 8192) :
    x.onRead n (.slotKind i story slot next placed) w = ((x.markSeen slot).appendRow i story slot k placed).follow n i story next true := by
  simp only [Walker.onRead, h]
  exact if_pos hl

theorem onRead_slotKind_full (h : laneOf w 0 ≠ 4) (hl : 8192 ≤ x.bank.rows.length) :
    x.onRead n (.slotKind i story slot next placed) w = (x.walkEnd n, [.mapFull story i slot]) := by
  simp only [Walker.onRead, rowKindOf_shown h]
  exact if_neg (Nat.not_lt.mpr hl)

end

/-- A walk read that is not abandoned leaves the walker as the word read makes it, with its events (R10). -/
theorem walkRead_taken {s : State} {a : PortAccess} {r : WalkRead} (ha : Acts s .walkReadDone false
      (raiseAll ((freePort s).withRwk (s.rwk.onRead s.sru.set.settle r (readWord s.mem a.wa)).1)
        (s.rwk.onRead s.sru.set.settle r (readWord s.mem a.wa)).2))
    : ∃ t, exec .walkReadDone s = .next t ∧ ∀ y es, s.rwk.onRead s.sru.set.settle r (readWord s.mem a.wa) = (y, es) →
      onlyRaises [.rwk, .port] es s t ∧ t.rwk = y ∧ (es = [] → onlyChanges [.rwk, .port] s t) := by
  refine ⟨_, exec_of_acts ha, fun y es h => ?_⟩
  rw [h] at ha ⊢
  have hw : Writes [.rwk, .port] s (raiseAll ((freePort s).withRwk y) es) :=
    (((Writes.refl _ s).step (writes_freePort s) (by decide)).withRwk _ (by decide)).raiseAll _
  obtain ⟨-, hr⟩ := ha.raises (es := es) hw (by rw [raiseAll_sru, acceptAll_congr (raiseAll_ftu ..)]; rfl)
  refine ⟨hr, (arbitrate_rwk _).trans (raiseAll_rwk ..), ?_⟩
  rintro rfl
  exact hw.onlyChanges_arbitrate (.inr rfl)

/-- Settles O23. -/
theorem walkReadTaken : Obligations.WalkReadTaken := by
  refine ⟨fun s a r hb ho hwr hor hr => ?_, fun s a hb ho hwr hor => ?_⟩
  · have ha := Acts.walkReadDone (inProgress_of hb ho hwr) hor hr
    obtain ⟨t, he, hk⟩ := walkRead_taken ha
    refine ⟨t, he, ?_, ?_, ?_, ?_, ?_, ?_, ?_, ?_, ?_, ?_⟩
    · rintro i rfl hz
      obtain ⟨-, hy, hc⟩ := hk _ _ (onRead_entryWord_empty hz)
      exact ⟨hc rfl, hy.trans (nextEntry_eq ..)⟩
    · rintro i rfl hz
      obtain ⟨-, hy, hc⟩ := hk _ _ (onRead_entryWord hz)
      exact ⟨hc rfl, hy⟩
    · rintro i story slot rfl hs
      obtain ⟨-, hy, hc⟩ := hk _ _ (onRead_entryFlags_skip hs)
      exact ⟨hc rfl, hy.trans (nextEntry_eq ..)⟩
    · rintro i story slot rfl hs hq
      obtain ⟨hra, hy, -⟩ := hk _ _ (onRead_entryFlags_dup hs hq)
      exact ⟨hra, hy.trans (nextEntry_eq ..)⟩
    · rintro i story slot rfl hs hq
      obtain ⟨hra, hy, -⟩ := hk _ _ (onRead_entryFlags_new hs hq)
      exact ⟨hra, hy⟩
    · rintro i story slot placed rfl hs
      obtain ⟨-, hy, hc⟩ := hk _ _ (onRead_slotWord hs)
      exact ⟨hc rfl, hy⟩
    · rintro i story slot placed rfl hs
      obtain ⟨hra, hy, -⟩ := hk _ _ ((onRead_slotWord_foreign hs).trans (chainFault_eq ..))
      exact ⟨hra, hy⟩
    · rintro i story slot next placed rfl hh
      obtain ⟨hra, hy, -⟩ := hk _ _ (onRead_slotKind_hidden hh)
      exact ⟨hra, hy⟩
    · rintro i story slot next placed rfl hh hl
      obtain ⟨hra, hy, -⟩ := hk _ _ (onRead_slotKind_row (rowKindOf_shown hh) hl)
      exact ⟨hra, hy⟩
    · rintro i story slot next placed rfl hh hl
      obtain ⟨hra, hy, -⟩ := hk _ _ (onRead_slotKind_full hh hl)
      exact ⟨hra, hy⟩
  · have ha := Acts.walkReadLeft (inProgress_of hb ho hwr) (.inl hor)
    obtain ⟨he, hc⟩ := ha.changes (writes_freePort s) (.inr rfl)
    exact ⟨_, he, hc, rfl⟩

/-! ## The end of a walk and its start (R7, R9, R15 to R18) -/

theorem settleExpires_idle {x : Walker} (hp : x.phase = .idle) (hm : x.mapStale = true) :
    x.settleExpires = Walker.startWalk { x with settle := .elapsed } := if_pos ⟨hp, hm⟩

theorem settleExpires_kept {x : Walker} (h : x.phase ≠ .idle ∨ x.mapStale = false) :
    x.settleExpires = { x with settle := .elapsed } := by
  refine if_neg ?_
  rintro ⟨hp, hm⟩
  rcases h with h | h
  · exact h hp
  · rw [h] at hm
    cases hm

/-- Settles O24. -/
theorem walkEndsAndStarts : Obligations.WalkEndsAndStarts := by
  refine ⟨fun x n => ⟨fun h => if_pos h, fun h hd hn => ?_, fun h hd hm => ?_, fun h hd => ?_⟩, fun s h => ?_, fun s h => if_neg h⟩
  · unfold Walker.walkEnd
    rw [if_neg (by simp [h]), if_pos (show x.discards < maxDiscards from hd)]
    exact if_neg (by omega)
  · unfold Walker.walkEnd
    rw [if_neg (by simp [h]), if_pos (show x.discards < maxDiscards from hd)]
    exact settleExpires_idle rfl hm
  · unfold Walker.walkEnd maxDiscards
    rw [if_neg (by simp [h]), if_neg (by omega)]
  · obtain ⟨he, hc⟩ := (Acts.settleExpiry h).changes (writes_withRwk s _) (.inr rfl)
    refine ⟨_, he, hc, fun hp hm => ?_, fun hn => ?_⟩ <;> rw [arbitrate_rwk, State.withRwk_rwk]
    · rw [settleExpires_idle hp hm]
      rfl
    · exact settleExpires_kept hn

end Sys2Proof.Machine

/-! The target speed HELM presents, and the successor among the waiting (R112, R123). -/

namespace Sys2Proof.Machine

open Sys2Proof.Config

@[simp] theorem linkOf_claimantOf (l : Link) : linkOf (claimantOf l) = some l := by cases l <;> rfl

/-! ## The target speed (R123) -/

theorem steering_eq (s : State) (l : Link) : steering s l =
    if (s.hlr.get l).link = .absent ∨ (s.hlr.get l).link = .lost then 0 else s.helm.lastDeflection.get l := by
  unfold steering
  cases (s.hlr.get l).link <;> simp

section
variable {s : State} {h : Claimant} (hh : s.helm.holder = some h) (hp : s.helm.paused = false) (hc : s.helm.coast = false)
  (hr : 0 < rowCount s)
include hh hp hc hr

theorem helmTarget_of_link {l : Link} (hl : linkOf h = some l) : helmTarget s =
    leverTarget (s.helm.curveOf (s.helm.inUse.get l)) (s.helm.inUse.get l) s.sce.speedLimit (steering s l) := by
  simp [helmTarget, helmTargetWith, hh, hp, hc, hr.ne', hl]

theorem helmTarget_of_no_link (hl : linkOf h = none) : helmTarget s =
    clampInt (-(s.sce.speedLimit : Int)) s.sce.speedLimit s.sru.set.autoSpeed := by
  simp [helmTarget, helmTargetWith, hh, hp, hc, hr.ne', hl]

end

theorem leverTarget_rest {curve : List Nat} {c : ClaimantSettings} {limit : Nat} {d : Int} (h : d.natAbs ≤ c.deadZone) :
    leverTarget curve c limit d = 0 := if_pos h

theorem leverTarget_forward {curve : List Nat} {c : ClaimantSettings} {limit : Nat} {d : Int} (h : c.deadZone < d.natAbs)
    (hd : 0 < d) : leverTarget curve c limit d = min (scaledSpeed curve c.scale d.natAbs) limit := by
  unfold leverTarget
  rw [if_neg (by omega)]
  exact if_neg (by omega)

theorem leverTarget_back {curve : List Nat} {c : ClaimantSettings} {limit : Nat} {d : Int} (h : c.deadZone < d.natAbs)
    (hd : d < 0) : leverTarget curve c limit d = -min (scaledSpeed curve c.scale d.natAbs) limit := by
  unfold leverTarget
  rw [if_neg (by omega)]
  exact if_pos hd

/-- Settles O36. -/
theorem targetSpeedRule : Obligations.TargetSpeedRule := by
  refine ⟨fun s h => ?_, fun s l hh hp hc hr => ?_, fun s hh hp hc hr => ?_⟩
  · unfold helmTarget helmTargetWith
    split
    · rfl
    · next hh => rw [if_pos (by rcases h with h | h | h | h <;> simp_all)]
  · dsimp only
    rw [helmTarget_of_link hh hp hc hr (linkOf_claimantOf l), ← steering_eq]
    exact ⟨leverTarget_rest, leverTarget_forward, leverTarget_back⟩
  · dsimp only
    rw [helmTarget_of_no_link hh hp hc hr rfl, clampInt]
    omega

/-! ## The successor (R112) -/

/-- The one chosen has a higher level than all before it, and as high a level as all after it. -/
theorem bestOf_split {level : Claimant → Nat} {l : List Claimant} {d : Claimant} (h : bestOf level l = some d) :
    ∃ before after, l = before ++ d :: after ∧ (∀ c ∈ before, level c < level d) ∧ ∀ c ∈ after, level c ≤ level d := by
  induction l generalizing d with
  | nil => cases h
  | cons a rest ih =>
    rw [bestOf] at h
    cases hb : bestOf level rest with
    | none =>
      rw [hb] at h
      obtain rfl : a = d := Option.some.inj h
      exact ⟨[], rest, rfl, by simp, by simp [bestOf_eq_none.mp hb]⟩
    | some e =>
      rw [hb] at h
      obtain ⟨before, after, hsplit, hlow, hhigh⟩ := ih hb
      by_cases hlt : level a < level e
      · obtain rfl : e = d := Option.some.inj ((if_pos hlt).symm.trans h)
        exact ⟨a :: before, after, by rw [hsplit]; rfl, by simpa [hlt] using hlow, hhigh⟩
      · obtain rfl : a = d := Option.some.inj ((if_neg hlt).symm.trans h)
        have hle := Nat.not_lt.mp hlt
        refine ⟨[], rest, rfl, by simp, fun c hc => ?_⟩
        rw [hsplit, List.mem_append, List.mem_cons] at hc
        rcases hc with hc | rfl | hc
        · exact (hlow c hc).le.trans hle
        · exact hle
        · exact (hhigh c hc).trans hle

/-- The pending claimants in their fixed order (R112). -/
def Helm.fixedOrder (x : Helm) : List Claimant :=
  [Claimant.operator, Claimant.presenter, Claimant.auto].filter (fun c => decide (c ∈ x.waiting))

theorem tieOrder_eq (x : Helm) : x.tieOrder = x.stack ++ x.fixedOrder := rfl

theorem waiting_of_mem_fixedOrder {x : Helm} {c : Claimant} (h : c ∈ x.fixedOrder) : c ∈ x.waiting := by
  simpa using (List.mem_filter.mp h).2

/-- Of two pending claimants the first in the fixed order is OPERATOR, or the second is AUTO (R112). -/
theorem fixedOrder_pair {x : Helm} {c d : Claimant} (h : [d, c].Sublist x.fixedOrder) : c = .auto ∨ d = .operator := by
  have hs : [d, c].Sublist [.operator, .presenter, .auto] := h.trans List.filter_sublist
  cases c with
  | auto => exact .inl rfl
  | operator | presenter =>
    cases d with
    | operator => exact .inr rfl
    | presenter | auto => exact absurd hs (by decide)

/-- The successor stands among the waiting, and whoever comes after it in the order of ties does so by R112. -/
theorem after_successor {x : Helm} (hn : (x.stack ++ x.waiting).Nodup) {before after : List Claimant} {c d : Claimant}
    (hs : x.tieOrder = before ++ d :: after) (hc : c ∈ after) :
    (c ∈ x.stack → ∃ above below, x.stack = above ++ d :: below ∧ c ∈ below) ∧
      (d ∈ x.waiting → c ∈ x.waiting ∧ (c = .auto ∨ d = .operator)) := by
  have apart {e : Claimant} (h1 : e ∈ x.stack) (h2 : e ∈ x.waiting) : False := (List.disjoint_of_nodup_append hn) h1 h2
  rw [tieOrder_eq] at hs
  have inFixed {pre : List Claimant} (h : x.fixedOrder = pre ++ d :: after) :
      (c ∈ x.stack → ∃ above below, x.stack = above ++ d :: below ∧ c ∈ below) ∧
        (d ∈ x.waiting → c ∈ x.waiting ∧ (c = .auto ∨ d = .operator)) := by
    have hcw : c ∈ x.waiting := waiting_of_mem_fixedOrder (by rw [h]; simp [hc])
    refine ⟨fun hcs => (apart hcs hcw).elim, fun _ => ⟨hcw, fixedOrder_pair (x := x) ?_⟩⟩
    rw [h]
    exact ((List.singleton_sublist.mpr hc).cons_cons d).trans (List.sublist_append_right _ _)
  rcases List.append_eq_append_iff.mp hs with ⟨pre, -, h⟩ | ⟨tail, hstack, h⟩
  · exact inFixed h
  · cases tail with
    | nil => exact inFixed (pre := []) h.symm
    | cons e below =>
      rw [List.cons_append, List.cons.injEq] at h
      obtain ⟨rfl, rfl⟩ := h
      refine ⟨fun hcs => ⟨before, below, hstack, ?_⟩, fun hdw => (apart (by rw [hstack]; simp) hdw).elim⟩
      rcases List.mem_append.mp hc with hb | hf
      · exact hb
      · exact (apart hcs (waiting_of_mem_fixedOrder hf)).elim

/-- Settles O37. -/
theorem successorRule : Obligations.SuccessorRule := by
  refine fun s hok => ⟨successor_eq_none, fun d hd => ⟨mem_of_successor hd, fun c hne hc => ?_⟩⟩
  have hn : (s.helm.stack ++ s.helm.waiting).Nodup := by
    have h := hok.1
    rw [List.append_assoc] at h
    exact h.of_append_right
  obtain ⟨before, after, hs, hlow, hhigh⟩ := bestOf_split hd
  have hm : c ∈ before ++ d :: after := hs ▸ mem_tieOrder.mpr hc
  rw [List.mem_append, List.mem_cons] at hm
  rcases hm with hb | rfl | ha
  · exact ⟨(hlow c hb).le, fun he => absurd he (hlow c hb).ne⟩
  · exact absurd rfl hne
  · exact ⟨hhigh c ha, fun _ => after_successor hn hs ha⟩

end Sys2Proof.Machine

/-! What staged settings do when they come into use, and a claimant's letting go (R95, R101, R111, R113, R121). -/

namespace Sys2Proof.Machine

open Sys2Proof.Config

theorem Pair.set_set {α : Type} (p : Pair α) (l : Link) (x y : α) : (p.set l x).set l y = p.set l y := by cases l <;> rfl
theorem Pair.set_get {α : Type} (p : Pair α) (l : Link) : p.set l (p.get l) = p := by cases l <;> rfl

/-! ## Settings of a claimant coming into use -/

/-- One of these settings is a silence limit that the receiver has reached (R100). -/
def losesLink (x : Hlr) (us : List ClaimantUpdate) : Bool :=
  us.any fun u => match u with
    | .silenceLimit n => x.silent n
    | _ => false

/-- HELM after settings of a link's claimant have come into use, with the loss of the link or without (R101, R113, R121). -/
def Helm.used (x : Helm) (l : Link) (us : List ClaimantUpdate) (lost : Bool) : Helm :=
  let y := { x with inUse := x.inUse.set l (us.foldl ClaimantSettings.update (x.inUse.get l)) }
  if lost then Helm.leave { y with lastDeflection := y.lastDeflection.set l 0 } (claimantOf l) else y

/-- What settings of a link's claimant do as they come into use, one after another (R95, R101, R121). -/
structure Used (l : Link) (us : List ClaimantUpdate) (s u : State) : Prop where
  helm : u.helm = s.helm.used l us (losesLink (s.hlr.get l) us)
  others : ∀ k, k ≠ l → u.hlr.get k = s.hlr.get k
  fired : (u.hlr.get l).fired = (s.hlr.get l).fired
  link : (u.hlr.get l).link = if losesLink (s.hlr.get l) us then .lost else (s.hlr.get l).link
  sru : u.sru = acceptAll s.sru s (if losesLink (s.hlr.get l) us then [.linkState l .lost] else [])
  frame : Writes [.hlr, .helm] s u

/-- A silence limit looks only at the link's state and its silence counter (R100). -/
theorem losesLink_congr {x y : Hlr} (hl : y.link = x.link) (hs : y.silence = x.silence) (us : List ClaimantUpdate) :
    losesLink y us = losesLink x us := by
  simp only [losesLink, Hlr.silent, hl, hs]

theorem losesLink_lost {x : Hlr} (h : x.link = .lost) (us : List ClaimantUpdate) : losesLink x us = false := by
  rw [losesLink, List.any_eq_false]
  intro u _
  cases u <;> simp [Hlr.silent, h]

theorem losesLink_eq_false {x : Hlr} {us : List ClaimantUpdate} (h : ∀ n, .silenceLimit n ∉ us) : losesLink x us = false := by
  rw [losesLink, List.any_eq_false]
  intro u hu
  cases u with
  | silenceLimit n => exact absurd hu (h n)
  | _ => simp

theorem losesLink_iff {x : Hlr} {us : List ClaimantUpdate} : losesLink x us = true ↔
    (x.link = .suspect ∨ x.link = .active) ∧ ∃ n, .silenceLimit n ∈ us ∧ n ≠ 0 ∧ n ≤ x.silence := by
  rw [losesLink, List.any_eq_true]
  constructor
  · rintro ⟨u, hu, h⟩
    cases u with
    | silenceLimit n =>
      simp only [Hlr.silent, Bool.and_eq_true, Bool.or_eq_true, beq_iff_eq, bne_iff_ne, decide_eq_true_eq] at h
      obtain ⟨⟨hl, hn⟩, hs⟩ := h
      exact ⟨hl, n, hu, hn, hs⟩
    | _ => cases h
  · rintro ⟨hl, n, hu, hn, hs⟩
    refine ⟨_, hu, ?_⟩
    simp only [Hlr.silent, Bool.and_eq_true, Bool.or_eq_true, beq_iff_eq, bne_iff_ne, decide_eq_true_eq]
    exact ⟨⟨hl, hn⟩, hs⟩

theorem used_nil (x : Helm) (l : Link) : x.used l [] false = x := by
  simp [Helm.used, Pair.set_get]

theorem used_cons (x : Helm) (l : Link) (u : ClaimantUpdate) (us : List ClaimantUpdate) (lost : Bool) :
    (x.used l [u] false).used l us lost = x.used l (u :: us) lost := by
  cases lost <;> simp [Helm.used, Pair.set_set]

/-- Once the link is lost, what comes into use after it loses nothing more. -/
theorem used_lost (x : Helm) (l : Link) (u : ClaimantUpdate) (us : List ClaimantUpdate) :
    (x.used l [u] true).used l us false = x.used l (u :: us) true := by
  simp [Helm.used, Helm.leave, Pair.set_set]

theorem Used.nil (l : Link) (s : State) : Used l [] s s :=
  ⟨(used_nil s.helm l).symm, fun _ _ => rfl, rfl, rfl, rfl, .refl _ s⟩

/-- The state in which a setting is in use and has done nothing else yet (R121). -/
def settingUsed (l : Link) (s : State) (u : ClaimantUpdate) : State :=
  s.withHelm { s.helm with inUse := s.helm.inUse.set l ((s.helm.inUse.get l).update u) }

theorem used_settingUsed {l : Link} {s : State} {u : ClaimantUpdate} (h : losesLink (s.hlr.get l) [u] = false) :
    Used l [u] s (settingUsed l s u) where
  helm := by rw [h]; rfl
  others _ _ := rfl
  fired := rfl
  link := by rw [h]; rfl
  sru := by rw [h]; rfl
  frame := (writes_withHelm s _).mono (by decide)

theorem used_withLink {l : Link} {s : State} {u : ClaimantUpdate} {x : Hlr} (h : losesLink (s.hlr.get l) [u] = false)
    (hf : x.fired = (s.hlr.get l).fired) (hl : x.link = (s.hlr.get l).link) :
    Used l [u] s ((settingUsed l s u).withLink l x) where
  helm := by rw [h]; rfl
  others _ hk := Pair.get_set_ne _ _ hk
  fired := by rw [State.withLink_hlr, Pair.get_set, hf]
  link := by rw [State.withLink_hlr, Pair.get_set, h, hl]; rfl
  sru := by rw [h]; rfl
  frame := ((Writes.refl _ s).withHelm _ (by decide)).withLink _ _ (by decide)

theorem used_putIntoUse (l : Link) (s : State) (u : ClaimantUpdate) : Used l [u] s (putIntoUse l s u) := by
  cases u with
  | button => exact used_withLink rfl rfl rfl
  | debounce => exact used_withLink rfl rfl rfl
  | silenceLimit n =>
    have he : losesLink (s.hlr.get l) [.silenceLimit n] = (s.hlr.get l).silent n := Bool.or_false _
    by_cases hs : (s.hlr.get l).silent n = true
    · rw [hs] at he
      have hw := writes_putIntoUse l s (.silenceLimit n)
      have hp : putIntoUse l s (.silenceLimit n) = _ := if_pos hs
      rw [hp] at hw ⊢
      refine ⟨by rw [he]; rfl, fun k hk => Pair.get_set_ne _ _ hk, ?_, ?_, by rw [he]; rfl, hw⟩
      · exact (congrArg Hlr.fired (Pair.get_set s.hlr l (s.hlr.get l).enterLost) :)
      · rw [he]
        exact (congrArg Hlr.link (Pair.get_set s.hlr l (s.hlr.get l).enterLost) :)
    · have hp : putIntoUse l s (.silenceLimit n) = settingUsed l s (.silenceLimit n) := if_neg hs
      rw [hp]
      exact used_settingUsed (by rw [he]; simpa using hs)
  | _ => exact used_settingUsed rfl

theorem putIntoUse_silence {l : Link} {s : State} {u : ClaimantUpdate} (h : losesLink (s.hlr.get l) [u] = false) :
    ((putIntoUse l s u).hlr.get l).silence = (s.hlr.get l).silence := by
  cases u with
  | button => exact (congrArg Hlr.silence (Pair.get_set s.hlr l (s.hlr.get l).clearPresses) :)
  | debounce => exact (congrArg Hlr.silence (Pair.get_set s.hlr l (s.hlr.get l).clearAgree) :)
  | silenceLimit n =>
    have hs : ¬(s.hlr.get l).silent n = true := by simpa [losesLink] using h
    have hp : putIntoUse l s (.silenceLimit n) = settingUsed l s (.silenceLimit n) := if_neg hs
    rw [hp]
    rfl
  | _ => rfl

theorem Used.cons {l : Link} {u : ClaimantUpdate} {us : List ClaimantUpdate} {s t : State}
    (h : Used l us (putIntoUse l s u) t) : Used l (u :: us) s t := by
  have h1 := used_putIntoUse l s u
  have hor : losesLink (s.hlr.get l) (u :: us) = (losesLink (s.hlr.get l) [u] || losesLink (s.hlr.get l) us) := by
    simp [losesLink]
  have hftu : (putIntoUse l s u).ftu = s.ftu := h1.frame.ftu (by decide)
  cases hu : losesLink (s.hlr.get l) [u] with
  | true =>
    have hlink := h1.link
    rw [hu, if_pos rfl] at hlink
    have hrest : losesLink ((putIntoUse l s u).hlr.get l) us = false := losesLink_lost hlink us
    rw [hu, Bool.true_or] at hor
    have h1h := h1.helm
    have h1s := h1.sru
    rw [hu] at h1h h1s
    refine ⟨?_, fun k hk => (h.others k hk).trans (h1.others k hk), h.fired.trans h1.fired, ?_, ?_, h1.frame.trans h.frame⟩
    · rw [h.helm, hrest, h1h, used_lost, hor]
    · rw [h.link, hrest, hor]
      simpa using hlink
    · rw [h.sru, hrest, h1s, hor]
      rfl
  | false =>
    rw [hu, Bool.false_or] at hor
    have hlink := h1.link
    rw [hu] at hlink
    have hrest : losesLink ((putIntoUse l s u).hlr.get l) us = losesLink (s.hlr.get l) us :=
      losesLink_congr hlink (putIntoUse_silence hu) us
    have h1h := h1.helm
    have h1s := h1.sru
    rw [hu] at h1h h1s
    refine ⟨?_, fun k hk => (h.others k hk).trans (h1.others k hk), h.fired.trans h1.fired, ?_, ?_, h1.frame.trans h.frame⟩
    · rw [h.helm, hrest, h1h, used_cons, hor]
    · rw [h.link, hrest, hor, hlink]
      rfl
    · rw [h.sru, hrest, h1s, hor, acceptAll_congr hftu]
      rfl

theorem used_foldl (l : Link) (us : List ClaimantUpdate) (s : State) : Used l us s (us.foldl (putIntoUse l) s) := by
  induction us generalizing s with
  | nil => exact .nil l s
  | cons u rest ih => exact (ih (putIntoUse l s u)).cons

/-- The state in which a claimant's staging has been emptied (R121). -/
def stagingEmptied (s : State) (l : Link) : State := s.withHelm { s.helm with staged := s.helm.staged.set l [] }

theorem used_putStaged (s : State) (l : Link) : Used l (s.helm.staged.get l) (stagingEmptied s l) (putStaged s l) :=
  used_foldl l _ _

end Sys2Proof.Machine

/-! The actions that a hand unit sends the helm: TAKE, RELEASE, PAUSE and the jumps (R77, R109, R111, R113, R118, R120). -/

namespace Sys2Proof.Machine

open Sys2Proof.Config

/-! ## HELM's part of settings that come into use -/

section
variable (x : Helm) (l : Link) (us : List ClaimantUpdate) (lost : Bool)

theorem used_eq : x.used l us lost = { x with
    stack := (x.used l us lost).stack, waiting := (x.used l us lost).waiting, inUse := (x.used l us lost).inUse
    lastDeflection := (x.used l us lost).lastDeflection } := by cases lost <;> rfl

theorem used_inUse : (x.used l us lost).inUse = x.inUse.set l (us.foldl ClaimantSettings.update (x.inUse.get l)) := by cases lost <;> rfl

theorem used_stack : (x.used l us lost).stack = if lost then x.stack.filter (· != claimantOf l) else x.stack := by cases lost <;> rfl

theorem used_waiting : (x.used l us lost).waiting = if lost then x.waiting.filter (· != claimantOf l) else x.waiting := by
  cases lost <;> rfl

theorem used_lastDeflection : (x.used l us lost).lastDeflection = if lost then x.lastDeflection.set l 0 else x.lastDeflection := by
  cases lost <;> rfl

end

theorem filter_ne_of_not_mem {c : Claimant} {l : List Claimant} (h : c ∉ l) : l.filter (· != c) = l :=
  List.filter_eq_self.mpr fun a ha => by
    simp only [bne_iff_ne, ne_eq]
    rintro rfl
    exact h ha

/-- A claimant that stands in neither collection is missed in neither. -/
theorem used_stack_of_not_mem {x : Helm} {l : Link} (us : List ClaimantUpdate) (lost : Bool) (h : claimantOf l ∉ x.stack) :
    (x.used l us lost).stack = x.stack := by
  rw [used_stack, filter_ne_of_not_mem h, ite_self]

theorem used_waiting_of_not_mem {x : Helm} {l : Link} (us : List ClaimantUpdate) (lost : Bool) (h : claimantOf l ∉ x.waiting) :
    (x.used l us lost).waiting = x.waiting := by
  rw [used_waiting, filter_ne_of_not_mem h, ite_self]

theorem putStagedOf_claimantOf (s : State) (l : Link) : putStagedOf s (claimantOf l) = putStaged s l := by
  rw [putStagedOf, linkOf_claimantOf]

theorem putStagedOf_auto (s : State) : putStagedOf s .auto = s := rfl

/-- The staged settings of a link's claimant have come into use between these states (R121). -/
theorem stagedTaken_of {s v t : State} {l : Link} (hst : v.helm.staged = s.helm.staged) (hin : v.helm.inUse = s.helm.inUse)
    (ht : t.helm.staged = (putStaged v l).helm.staged) (ht' : t.helm.inUse = (putStaged v l).helm.inUse) :
    stagedTaken s (claimantOf l) t := by
  have hu := (used_putStaged v l).helm
  rw [stagedTaken, linkOf_claimantOf]
  refine ⟨?_, ?_⟩
  · rw [ht, hu, used_eq, ← hst]
    rfl
  · rw [ht', hu, used_inUse, ← hst, ← hin]
    rfl

/-- The receivers after an action has been taken from a link's list and its claimant's staged settings have come into use. -/
theorem firedTakenStaged_of {s v t : State} {l : Link} {rest : List Fired} (hst : v.helm.staged = s.helm.staged)
    (hv : v.hlr = s.hlr.set l { s.hlr.get l with fired := rest }) (ht : t.hlr = (putStaged v l).hlr) : firedTakenStaged s l rest t := by
  have hu := used_putStaged v l
  have hemp : (stagingEmptied v l).hlr = s.hlr.set l { s.hlr.get l with fired := rest } := hv
  refine ⟨?_, fun k hk => ?_, fun hn => ?_⟩
  · rw [ht, hu.fired, hemp, Pair.get_set]
  · rw [ht, hu.others k hk, hemp, Pair.get_set_ne _ _ hk]
  · rw [firedTaken, ht, ← hemp, putStaged, hst, hn]
    rfl

/-! ## A claim (R109) -/

/-- The state in which a claimant has joined those that wait (R109). -/
def joined (s : State) (c : Claimant) : State := s.withHelm { s.helm with waiting := s.helm.waiting ++ [c] }

section
variable {s : State} {c h : Claimant}

theorem judgeClaim_refused (hl : linkRefuses s c = true) : judgeClaim s c = s.withHelm { s.helm with refused := s.helm.refused + 1 } :=
  if_pos hl

theorem judgeClaim_standing (hl : linkRefuses s c = false) (hc : claimState s.helm c ≠ .idle) : judgeClaim s c = s :=
  (if_neg (by simp [hl])).trans (if_pos hc)

theorem judgeClaim_free (hl : linkRefuses s c = false) (hc : claimState s.helm c = .idle) (hh : s.helm.holder = none) :
    judgeClaim s c = changeHolder s none (some c) .claim := by
  simp [judgeClaim, hl, hc, hh]

theorem judgeClaim_preempts (hl : linkRefuses s c = false) (hc : claimState s.helm c = .idle) (hh : s.helm.holder = some h)
    (hr : outranks s h c) : judgeClaim s c = preempt s h c .claim := by
  have hr' : s.sru.set.helmMode = .nest ∧ levelOf s.sru.set h < levelOf s.sru.set c := hr
  simp [judgeClaim, hl, hc, hh, hr']

theorem judgeClaim_waits (hl : linkRefuses s c = false) (hc : claimState s.helm c = .idle) (hh : s.helm.holder = some h)
    (hr : ¬outranks s h c) : judgeClaim s c = putStagedOf (joined s c) c := by
  have hr' : ¬(s.sru.set.helmMode = .nest ∧ levelOf s.sru.set h < levelOf s.sru.set c) := hr
  simp [judgeClaim, hl, hc, hh, hr', joined]

end

theorem not_outranks {s : State} {h c : Claimant}
    (hr : s.sru.set.helmMode = .single ∨ levelOf s.sru.set c ≤ levelOf s.sru.set h) : ¬outranks s h c := by
  rintro ⟨hm, hl⟩
  rcases hr with hr | hr
  · rw [hm] at hr
    cases hr
  · omega

theorem linkRefuses_claimantOf (s : State) (l : Link) : linkRefuses s (claimantOf l) = ((s.hlr.get l).link != .active) := by
  rw [linkRefuses, linkOf_claimantOf]

theorem linkRefuses_afterFired (s : State) (l : Link) (rest : List Fired) :
    linkRefuses (afterFired s l rest) (claimantOf l) = ((s.hlr.get l).link != .active) := by
  rw [linkRefuses_claimantOf]
  exact (congrArg (fun x : Hlr => x.link != .active) (Pair.get_set s.hlr l { s.hlr.get l with fired := rest }) :)

/-- A claimant that waits and is not lost keeps its place; one whose link its settings lose does not (R101, R109, R121). -/
theorem claim_waits {s v : State} {l : Link} {h : Claimant} (hh : v.helm.holder = some h) (hi : claimState v.helm (claimantOf l) = .idle)
    (hv : v.helm = s.helm) :
    let u := putStaged (joined v (claimantOf l)) l
    u.helm.holder = some h ∧ u.helm.stack = s.helm.stack ∧ stagedTaken s (claimantOf l) u ∧
      ((∀ n, .silenceLimit n ∉ s.helm.staged.get l) → u.sru = v.sru ∧ u.helm.waiting = s.helm.waiting ++ [claimantOf l]) ∧
      u.helm.paused = s.helm.paused ∧ u.helm.coast = s.helm.coast := by
  have hu := used_putStaged (joined v (claimantOf l)) l
  have hns : claimantOf l ∉ v.helm.stack := fun hm => claimState_idle.mp hi (by simp [claimants, hm])
  refine ⟨?_, ?_, stagedTaken_of (v := joined v (claimantOf l)) ?_ ?_ rfl rfl, fun hn => ⟨?_, ?_⟩, ?_, ?_⟩
  · rw [hu.helm, used_eq]
    exact hh
  · rw [hu.helm, used_stack_of_not_mem _ _ (by exact hns), ← hv]
    rfl
  · rw [← hv]; rfl
  · rw [← hv]; rfl
  · rw [hu.sru, losesLink_eq_false (by rw [joined, State.withHelm_helm, hv]; exact hn)]
    rfl
  · rw [hu.helm, losesLink_eq_false (by rw [joined, State.withHelm_helm, hv]; exact hn), used_waiting, ← hv]
    rfl
  · rw [hu.helm, used_eq, ← hv]
    rfl
  · rw [hu.helm, used_eq, ← hv]
    rfl

/-- Settles O38. -/
theorem takeJudged : Obligations.TakeJudged := by
  intro s l q active rest hf
  have ha := Acts.take hf rfl
  have hw : Writes [.hlr, .helm] s (judgeClaim (afterFired s l rest) (claimantOf l)) := acts_writes ha
  have hfired : firedTaken s l rest (arbitrate (afterFired s l rest)) := by rw [firedTaken, arbitrate_hlr]; rfl
  refine ⟨_, exec_of_acts ha, ?_⟩
  rw [finish, if_neg (by simp), arbitrate_helm]
  refine ⟨fun hl => ?_, fun hl hi => ?_, fun hl hi hh => ?_, fun h hl hi hh hm hlev => ?_, fun h hl hi hh hr => ?_⟩
  · have hj := judgeClaim_refused (s := afterFired s l rest) (c := claimantOf l) (by rw [linkRefuses_afterFired]; simpa using hl)
    rw [hj] at hw ⊢
    exact ⟨hw.onlyChanges_arbitrate (.inr rfl), by rw [firedTaken, arbitrate_hlr]; rfl, rfl⟩
  all_goals have href : linkRefuses (afterFired s l rest) (claimantOf l) = false := by rw [linkRefuses_afterFired, hl]; rfl
  · rw [judgeClaim_standing href hi]
    exact ⟨(writes_afterFired s l rest).onlyChanges_arbitrate (.inr rfl), hfired⟩
  · have hj := judgeClaim_free (s := afterFired s l rest) href hi hh
    rw [hj] at hw ⊢
    exact ⟨hw.onlyRaises_arbitrate rfl, by rw [firedTaken, arbitrate_hlr]; rfl, rfl⟩
  · have hj := judgeClaim_preempts (s := afterFired s l rest) href hi hh ⟨hm, hlev⟩
    rw [hj] at hw ⊢
    exact ⟨hw.onlyRaises_arbitrate rfl, by rw [firedTaken, arbitrate_hlr]; rfl, rfl⟩
  · have hj := judgeClaim_waits (s := afterFired s l rest) href hi hh (not_outranks hr)
    rw [hj, putStagedOf_claimantOf] at hw ⊢
    obtain ⟨hhold, hstack, hstaged, hquiet, hpaused, hcoast⟩ := claim_waits (s := s) (v := afterFired s l rest) hh hi rfl
    refine ⟨hhold, hstack, ?_, ?_, fun hn => ?_⟩
    · rw [stagedTaken, arbitrate_helm]
      exact hstaged
    · exact firedTakenStaged_of (v := joined (afterFired s l rest) (claimantOf l)) rfl rfl (arbitrate_hlr _)
    · obtain ⟨hsru, hwait⟩ := hquiet hn
      exact ⟨hw.onlyChanges_arbitrate (.inr hsru), hwait, hpaused, hcoast⟩

/-! ## Letting go (R111, R113) -/

/-- HELM when it passes to the successor, who leaves his collection, or to no one (R111, R117). -/
def Helm.passTo (x : Helm) (o : Option Claimant) : Helm :=
  { x with
    holder := o, stack := x.stack.filter (fun y => some y != o), waiting := x.waiting.filter (fun y => some y != o)
    paused := false, coast := false, cleared := false }

/-- The state in which no one holds the helm (R111). -/
def holderless (s : State) : State := s.withHelm { s.helm with holder := none }

/-- The state in which the holder has given up the helm, his staged settings are in use, and no successor has come yet (R111). -/
def freed (s : State) (c : Claimant) : State := putStagedOf (holderless s) c

theorem releaseHolder_eq (s : State) (c : Claimant) (k : HelmCause) : releaseHolder s c k =
    raise ((freed s c).withHelm ((freed s c).helm.passTo (successor (freed s c)))) (.helmChange (some c) (successor (freed s c)) k) := by
  have hd : releaseHolder s c k = match successor (freed s c) with
      | none => changeHolder (freed s c) (some c) none k
      | some d => changeHolder ((freed s c).withHelm ((freed s c).helm.leave d)) (some c) (some d) k := rfl
  rw [hd]
  cases h : successor (freed s c) with
  | none =>
    obtain ⟨hs, hw⟩ := successor_eq_none.mp h
    have hp : (freed s c).helm.passTo none = { (freed s c).helm with holder := none, paused := false, coast := false, cleared := false } := by
      simp [Helm.passTo, hs, hw]
    rw [hp]
    rfl
  | some d =>
    have hp : (freed s c).helm.passTo (some d) =
        { (freed s c).helm.leave d with holder := some d, paused := false, coast := false, cleared := false } := by
      simp only [Helm.passTo, Helm.leave]
      congr 1
    rw [hp]
    rfl

/-- The successor looks at those that wait and their levels only (R112). -/
theorem successor_congr {s u : State} (hs : u.helm.stack = s.helm.stack) (hw : u.helm.waiting = s.helm.waiting)
    (hl : u.sru.set = s.sru.set) : successor u = successor s := by
  simp only [successor, Helm.tieOrder, hs, hw, hl]

/-- The holder gives up the helm with everyone else as before. -/
structure Frees (s u : State) : Prop where
  helm : u.helm = { s.helm with
    holder := none, inUse := u.helm.inUse, staged := u.helm.staged, lastDeflection := u.helm.lastDeflection }
  set : u.sru.set = s.sru.set

theorem frees_freed_auto (s : State) : Frees s (freed s .auto) := ⟨rfl, rfl⟩

theorem freed_claimantOf (s : State) (l : Link) : freed s (claimantOf l) = putStaged (holderless s) l :=
  putStagedOf_claimantOf _ l

theorem frees_freed {s : State} {l : Link} (hs : claimantOf l ∉ s.helm.stack) (hw : claimantOf l ∉ s.helm.waiting) :
    Frees s (freed s (claimantOf l)) := by
  have hu := used_putStaged (holderless s) l
  rw [freed_claimantOf]
  refine ⟨?_, hu.frame.sru (by decide) |>.set⟩
  rw [hu.helm, used_eq, used_stack_of_not_mem _ _ (by exact hs), used_waiting_of_not_mem _ _ (by exact hw)]
  rfl

theorem handedOver_releaseHolder {s : State} {c : Claimant} (h : Frees s (freed s c)) (k : HelmCause) :
    handedOver s (releaseHolder s c k) ∧
      (releaseHolder s c k).sru = (freed s c).sru.accept (.helmChange (some c) (successor s) k) s.ftu.frame s.ftu.tick := by
  have hsucc : successor (freed s c) = successor s := successor_congr (by rw [h.helm]) (by rw [h.helm]) h.set
  have hftu : (freed s c).ftu = s.ftu := (writes_putStagedOf _ c).ftu (by decide)
  rw [releaseHolder_eq, hsucc]
  refine ⟨?_, ?_⟩
  · rw [handedOver, raise_helm, State.withHelm_helm, h.helm]
    rfl
  · rw [← hftu]
    rfl

theorem releaseHolder_staged (s : State) (c : Claimant) (k : HelmCause) :
    (releaseHolder s c k).helm.staged = (freed s c).helm.staged := by rw [releaseHolder_eq]; rfl

theorem releaseHolder_inUse (s : State) (c : Claimant) (k : HelmCause) :
    (releaseHolder s c k).helm.inUse = (freed s c).helm.inUse := by rw [releaseHolder_eq]; rfl

theorem releaseHolder_hlr (s : State) (c : Claimant) (k : HelmCause) : (releaseHolder s c k).hlr = (freed s c).hlr := by
  rw [releaseHolder_eq]; rfl

theorem letGo_holder {s : State} {c : Claimant} (h : s.helm.holder = some c) (k : HelmCause) : letGo s c k = releaseHolder s c k := by
  rw [letGo, claimState_holding.mpr h]

theorem letGo_idle {s : State} {c : Claimant} (h : claimState s.helm c = .idle) (k : HelmCause) : letGo s c k = s := by
  rw [letGo, h]

theorem letGo_waiting {s : State} {c : Claimant} (h : claimState s.helm c = .pending ∨ claimState s.helm c = .suspended) (k : HelmCause) :
    letGo s c k = withdraw s c := by
  unfold letGo
  rcases h with h | h <;> rw [h]

theorem withdraw_claimantOf (s : State) (l : Link) : withdraw s (claimantOf l) = putStaged (s.withHelm (s.helm.leave (claimantOf l))) l :=
  putStagedOf_claimantOf _ l

theorem withdrawn_withdraw (s : State) (c : Claimant) : withdrawn s c (withdraw s c) := by
  unfold withdrawn
  have hnot (l : List Claimant) : c ∉ l.filter (· != c) := by simp
  cases hc : linkOf c with
  | none => rw [withdraw, putStagedOf, hc]; rfl
  | some l =>
    obtain rfl : c = claimantOf l := by cases c <;> cases hc <;> rfl
    have hu := used_putStaged (s.withHelm (s.helm.leave (claimantOf l))) l
    rw [withdraw_claimantOf, hu.helm, used_eq, used_stack_of_not_mem _ _ (by exact hnot _), used_waiting_of_not_mem _ _ (by exact hnot _)]
    rfl

/-- A holder waits nowhere (R105). -/
theorem HelmOk.holder_not_waiting {s : State} {c : Claimant} (h : HelmOk s) (hc : s.helm.holder = some c) :
    c ∉ s.helm.stack ∧ c ∉ s.helm.waiting := by
  obtain ⟨hn, -⟩ := h
  rw [hc, List.append_assoc, Option.toList_some, List.singleton_append, List.nodup_cons, List.mem_append, not_or] at hn
  exact hn.1

/-- Settles O39. -/
theorem releaseHandsOver : Obligations.ReleaseHandsOver := by
  intro s l q active rest hok hf
  have ha := Acts.release hf rfl
  have hw : Writes [.hlr, .helm] s (letGo (afterFired s l rest) (claimantOf l) .release) := acts_writes ha
  refine ⟨_, exec_of_acts ha, ?_⟩
  rw [finish, if_neg (by simp)]
  refine ⟨fun hh => ?_, fun hh => ?_, fun hh => ?_⟩
  · rw [letGo_holder (s := afterFired s l rest) hh] at hw ⊢
    obtain ⟨hns, hnw⟩ := hok.holder_not_waiting hh
    obtain ⟨hover, hsru⟩ := handedOver_releaseHolder (s := afterFired s l rest) (frees_freed hns hnw) .release
    have hfreed := freed_claimantOf (afterFired s l rest) l
    have hu := (used_putStaged (holderless (afterFired s l rest)) l).sru
    have raises {es : List Event} (he : (freed (afterFired s l rest) (claimantOf l)).sru = acceptAll s.sru s es) :
        onlyRaises [.hlr, .helm] (es ++ [.helmChange (some (claimantOf l)) (successor s) .release]) s
          (arbitrate (releaseHolder (afterFired s l rest) (claimantOf l) .release)) := by
      refine hw.onlyRaises_arbitrate ?_
      rw [acceptAll_congr (hw.ftu (by decide)), acceptAll_append, ← he]
      exact hsru
    refine ⟨?_, ?_, ?_, ⟨_, raises ((congrArg State.sru hfreed).trans hu)⟩, fun hn => raises (es := []) ?_⟩
    · rw [handedOver, arbitrate_helm]
      exact hover
    · refine stagedTaken_of (v := holderless (afterFired s l rest)) rfl rfl ?_ ?_ <;>
        rw [arbitrate_helm]
      · rw [releaseHolder_staged, hfreed]
      · rw [releaseHolder_inUse, hfreed]
    · refine firedTakenStaged_of (v := holderless (afterFired s l rest)) rfl rfl ?_
      rw [arbitrate_hlr, releaseHolder_hlr, hfreed]
    · rw [hfreed]
      refine hu.trans ?_
      rw [losesLink_eq_false (by exact hn)]
      rfl
  · rw [letGo_waiting (s := afterFired s l rest) hh] at hw ⊢
    have hwd := withdrawn_withdraw (afterFired s l rest) (claimantOf l)
    have heq := withdraw_claimantOf (afterFired s l rest) l
    have hu := (used_putStaged ((afterFired s l rest).withHelm (s.helm.leave (claimantOf l))) l).sru
    refine ⟨?_, ?_, ?_, fun hn => hw.onlyChanges_arbitrate (.inr ?_)⟩
    · rw [withdrawn, arbitrate_helm]
      exact hwd
    · refine stagedTaken_of (v := (afterFired s l rest).withHelm (s.helm.leave (claimantOf l))) rfl rfl ?_ ?_ <;>
        rw [arbitrate_helm, heq] <;> rfl
    · refine firedTakenStaged_of (v := (afterFired s l rest).withHelm (s.helm.leave (claimantOf l))) rfl rfl ?_
      rw [arbitrate_hlr, heq]
      rfl
    · rw [heq]
      refine hu.trans ?_
      rw [losesLink_eq_false (by exact hn)]
      rfl
  · rw [letGo_idle (s := afterFired s l rest) hh]
    exact ⟨(writes_afterFired s l rest).onlyChanges_arbitrate (.inr rfl), by rw [firedTaken, arbitrate_hlr]; rfl⟩

/-! ## PAUSE and the jumps (R77, R118, R120) -/

section
variable {s : State} {c : Claimant}

theorem pauseAction_holder (h : s.helm.holder = some c) (q : Qualifier) :
    pauseAction s c q = s.withHelm (s.helm.pause q s.ftu.due.sce) := if_pos h
theorem pauseAction_other (h : s.helm.holder ≠ some c) (q : Qualifier) : pauseAction s c q = s := if_neg h
theorem jumpAction_holder (h : s.helm.holder = some c) (j : Jump) : jumpAction s c j = s.withSce { s.sce with jump := some j } :=
  if_pos h
theorem jumpAction_other (h : s.helm.holder ≠ some c) (j : Jump) : jumpAction s c j = s := if_neg h

end

/-- Settles O40. -/
theorem holderActions : Obligations.HolderActions := by
  refine ⟨fun s l q active rest hf => ?_, fun c j a s l q active rest hc hf => ?_⟩
  · have ha := Acts.pause hf rfl
    have hw := acts_writes ha
    refine ⟨_, exec_of_acts ha, ?_, fun hh => ?_, fun hh => ?_⟩ <;> rw [finish, if_neg (by simp)]
    · rw [firedTaken, arbitrate_hlr, (writes_pauseAction ..).hlr (by decide)]
      rfl
    · rw [pauseAction_holder (s := afterFired s l rest) hh] at hw ⊢
      refine ⟨hw.onlyChanges_arbitrate (.inr rfl), ?_⟩
      rw [arbitrate_helm]
      cases q <;> rfl
    · rw [pauseAction_other (s := afterFired s l rest) hh]
      exact (writes_afterFired s l rest).onlyChanges_arbitrate (.inr rfl)
  · have ha : Acts s c false (jumpAction (afterFired s l rest) (claimantOf l) j) := by
      rcases hc with ⟨rfl, rfl, rfl⟩ | ⟨rfl, rfl, rfl⟩ | ⟨rfl, rfl, rfl⟩
      · exact .returnMark hf rfl
      · exact .nextStory hf rfl
      · exact .prevStory hf rfl
    have hw : Writes [.hlr, .sce] s (jumpAction (afterFired s l rest) (claimantOf l) j) :=
      ((writes_afterFired s l rest).mono (by decide)).step (writes_jumpAction ..) (by decide)
    refine ⟨_, exec_of_acts ha, ?_, fun hh => ?_, fun hh => ?_⟩ <;> rw [finish, if_neg (by simp)]
    · rw [firedTaken, arbitrate_hlr, (writes_jumpAction ..).hlr (by decide)]
      rfl
    · rw [jumpAction_holder (s := afterFired s l rest) hh] at hw ⊢
      exact ⟨hw.onlyChanges_arbitrate (.inr rfl), arbitrate_sce _⟩
    · rw [jumpAction_other (s := afterFired s l rest) hh]
      exact (writes_afterFired s l rest).onlyChanges_arbitrate (.inr rfl)

end Sys2Proof.Machine

/-! Settings that a hand-over brings: the state in which one has been taken, and those that act at the helm (R106, R107, R110,
R115, R116, R121, R186, R187). -/

namespace Sys2Proof.Machine

open Sys2Proof.Config

/-! ## A setting taken (R186, R187) -/

theorem sruIs_of_eq {x : Sru} {t : State} (h : t.sru = x) : sruIs x t := by
  subst h
  exact ⟨rfl, .inl ⟨rfl, rfl⟩⟩

theorem sameBlock_of_plainlySame {s u : State} {b : Block} (h : plainlySame s u b) : sameBlock s u b := by
  cases b
  case ptp =>
    have hp : u.ptp = s.ptp := h
    simp [sameBlock, carriedKept, hp]
  case port =>
    have hp : u.port = s.port := h
    simp [sameBlock, portKept, hp]
  case sru => exact sruIs_of_eq h
  all_goals exact h

/-- The frame of a state update before the arbiter acts. -/
theorem Writes.onlyChanges {bs : List Block} {s u : State} (h : Writes bs s u) (hs : Block.sru ∈ bs ∨ u.sru = s.sru) :
    onlyChanges bs s u :=
  ⟨h.1, fun _ hb => sameBlock_of_plainlySame (h.plainlySame hs hb)⟩

theorem reportClamp_eq (s : State) (o n : Nat) (w : Word) : reportClamp s o n w = raiseAll s (clampReport o n w) := by
  unfold reportClamp clampReport
  split <;> rfl

/-- The state in which a hand-over has been taken, its events raised and the working settings replaced (R186, R187). -/
def settled (s : State) (rest : List Handover) (es : List Event) (c : Settings) : State :=
  withSettings (raiseAll (afterHandover s rest) es) c

section
variable (s : State) (rest : List Handover) (es : List Event) (c : Settings)

@[simp] theorem settled_ptp : (settled s rest es c).ptp = { s.ptp with handovers := rest } := by simp [settled, withSettings]
@[simp] theorem settled_helm : (settled s rest es c).helm = s.helm := by simp [settled, withSettings]
@[simp] theorem settled_hlr : (settled s rest es c).hlr = s.hlr := by simp [settled, withSettings]
@[simp] theorem settled_ftu : (settled s rest es c).ftu = s.ftu := by simp [settled, withSettings]
@[simp] theorem settled_set : (settled s rest es c).sru.set = c := by simp [settled, withSettings]

theorem settled_sru : (settled s rest es c).sru = { acceptAll s.sru s es with set := c } := by
  rw [settled, withSettings, State.withSru_sru, raiseAll_sru]
  rfl

theorem writes_settled : Writes [.ptp, .sru] s (settled s rest es c) :=
  (((Writes.refl _ s).withPtp _ (by decide)).raiseAll es).step (writes_withSettings _ c) (by decide)

end

/-- The working settings have no part in the taking of events (R202). -/
theorem acceptAll_set (x : Sru) (t : State) (c : Settings) (es : List Event) :
    acceptAll { x with set := c } t es = { acceptAll x t es with set := c } := by
  unfold acceptAll
  induction es generalizing x with
  | nil => rfl
  | cons e rest ih => exact ih (x.accept e t.ftu.frame t.ftu.tick)

theorem acceptAll_keeps_set (x : Sru) (t : State) (es : List Event) : (acceptAll x t es).set = x.set := by
  unfold acceptAll
  induction es generalizing x with
  | nil => rfl
  | cons e rest ih => exact ih _

/-- What follows a setting taken: it writes these blocks, and raises these events. -/
structure Follows (bs : List Block) (fs : List Event) (v u : State) : Prop where
  frame : Writes bs v u
  sru : u.sru = acceptAll v.sru u fs

theorem Follows.refl (bs : List Block) (s : State) : Follows bs [] s s := ⟨.refl bs s, rfl⟩

section
variable {s u : State} {rest : List Handover} {es fs : List Event} {c : Settings} {bs : List Block}
  (h : Follows bs fs (settled s rest es c) u)
include h

theorem Follows.set : u.sru.set = c := by rw [h.sru, acceptAll_keeps_set, settled_set]

theorem Follows.eventsTaken (hf : Block.ftu ∉ bs) : eventsTaken (es ++ fs) s u := by
  have hftu : u.ftu = s.ftu := (h.frame.ftu hf).trans (settled_ftu ..)
  refine sruIs_of_eq ?_
  rw [h.sru, settled_sru, acceptAll_set, acceptAll_append, acceptAll_congr hftu s.sru, acceptAll_congr hftu (acceptAll s.sru s es)]

theorem Follows.handoverTaken (hp : Block.ptp ∉ bs) : handoverTaken rest s u := (h.frame.ptp hp).trans (settled_ptp ..)

theorem Follows.onlyChanges {cs : List Block} (hc : [.ptp, .sru] ⊆ cs) (hb : bs ⊆ cs) : onlyChanges cs s u :=
  Writes.onlyChanges (((writes_settled s rest es c).mono hc).step h.frame hb) (.inl (hc (by simp)))

end

/-! ## The preemption test and the levels (R106, R115) -/

section
variable {s : State} {h d : Claimant} {k : HelmCause}

theorem preemptionTest_preempts (hm : s.sru.set.helmMode = .nest) (hh : s.helm.holder = some h) (hd : successor s = some d)
    (hl : levelOf s.sru.set h < levelOf s.sru.set d) : preemptionTest s k = preempt (s.withHelm (s.helm.leave d)) h d k := by
  simp [preemptionTest, hm, hh, hd, hl]

theorem preemptionTest_stays (hn : ∀ h d, s.sru.set.helmMode = .nest → s.helm.holder = some h → successor s = some d →
    levelOf s.sru.set d ≤ levelOf s.sru.set h) : preemptionTest s k = s := by
  unfold preemptionTest
  split
  · next h d hm hh hd => exact if_neg (Nat.not_lt.mpr (hn h d hm hh hd))
  · rfl

end

theorem follows_preempt (s : State) (h d : Claimant) (k : HelmCause) :
    Follows [.helm] [.helmChange (some h) (some d) k] s (preempt (s.withHelm (s.helm.leave d)) h d k) :=
  ⟨((Writes.refl _ s).withHelm _ (by decide)).step (writes_preempt ..) (by decide), rfl⟩

theorem setLevel_helmMode (x : Settings) (c : Claimant) (n : Nat) : (x.setLevel c n).helmMode = x.helmMode := by cases c <;> rfl

theorem takeLevel_eq (s : State) (rest : List Handover) (o : Nat) (c : Claimant) (w : Word) : takeLevel (afterHandover s rest) o c w =
    preemptionTest (settled s rest (clampReport o (levelTaken s.sru.set c w) w) (s.sru.set.setLevel c (levelTaken s.sru.set c w))) .level := by
  unfold takeLevel settled
  dsimp only
  rw [reportClamp_eq, raiseAll_sru_set]
  rfl

/-- The level rule of R106 and R115, for the level word of each claimant. -/
theorem levelWrite_acts {s : State} {c : Claimant} {o : Nat} {w : Word} {rest : List Handover} (h : s.ptp.handovers = .setting o w :: rest)
    (ho : controlWordAt o = some (.level c)) {n : Nat} (hn : n = levelTaken s.sru.set c w) :
    let ranked := withSettings s (s.sru.set.setLevel c n)
    ∃ t, leaves .levelWrite s t ∧ handoverTaken rest s t ∧ t.sru.set = s.sru.set.setLevel c n ∧
      onlyChanges [.ptp, .sru, .helm] s t ∧
      (∀ h d, s.sru.set.helmMode = .nest → s.helm.holder = some h → successor ranked = some d →
        levelOf ranked.sru.set h < levelOf ranked.sru.set d → preempted s h d t ∧
        eventsTaken (clampReport o n w ++ [.helmChange (some h) (some d) .level]) s t) ∧
      ((∀ h d, s.sru.set.helmMode = .nest → s.helm.holder = some h → successor ranked = some d →
        levelOf ranked.sru.set d ≤ levelOf ranked.sru.set h) → t.helm = s.helm ∧ eventsTaken (clampReport o n w) s t) := by
  intro ranked
  subst hn
  have ha := Acts.levelWrite h ho
  rw [takeLevel_eq] at ha
  generalize hes : clampReport o (levelTaken s.sru.set c w) w = es at ha ⊢
  generalize hset : s.sru.set.setLevel c (levelTaken s.sru.set c w) = cs at *
  have hmode : cs.helmMode = s.sru.set.helmMode := by rw [← hset, setLevel_helmMode]
  have hsucc : successor (settled s rest es cs) = successor ranked := successor_congr (by simp [ranked, withSettings])
    (by simp [ranked, withSettings]) (by simp [ranked, withSettings, hset])
  have hrank : ranked.sru.set = cs := hset
  by_cases hp : ∃ h d, s.sru.set.helmMode = .nest ∧ s.helm.holder = some h ∧ successor ranked = some d ∧
      levelOf cs h < levelOf cs d
  · obtain ⟨h, d, hm, hh, hd, hl⟩ := hp
    have hf := follows_preempt (settled s rest es cs) h d .level
    rw [preemptionTest_preempts (by rw [settled_set, hmode, hm]) (by rw [settled_helm, hh]) (hsucc.trans hd)
      (by rw [settled_set]; exact hl)] at ha
    refine ⟨_, exec_of_acts ha, hf.handoverTaken (by decide), hf.set, hf.onlyChanges (by decide) (by decide), fun h' d' _ hh' hd' _ => ?_,
      fun hn => absurd hl (Nat.not_lt.mpr (hrank ▸ hn h d hm hh hd))⟩
    obtain rfl : h = h' := Option.some.inj (hh.symm.trans hh')
    obtain rfl : d = d' := Option.some.inj (hd.symm.trans hd')
    refine ⟨?_, hf.eventsTaken (by decide)⟩
    rw [preempted, preempt, changeHolder_helm, State.withHelm_helm, State.withHelm_helm, settled_helm]
    rfl
  · have hstay : ∀ h d, s.sru.set.helmMode = .nest → s.helm.holder = some h → successor ranked = some d → levelOf cs d ≤ levelOf cs h :=
      fun h d hm hh hd => Nat.not_lt.mp fun hl => hp ⟨h, d, hm, hh, hd, hl⟩
    have hf := Follows.refl [] (settled s rest es cs)
    rw [preemptionTest_stays (fun h d hm hh hd => by
      rw [settled_set] at hm ⊢
      rw [settled_helm] at hh
      exact hstay h d (hmode ▸ hm) hh (hsucc ▸ hd))] at ha
    refine ⟨_, exec_of_acts ha, hf.handoverTaken (by decide), hf.set, hf.onlyChanges (by decide) (by decide),
      fun h d hm hh hd hl => absurd (hrank ▸ hl) (Nat.not_lt.mpr (hstay h d hm hh hd)), fun _ => ⟨settled_helm .., ?_⟩⟩
    have := hf.eventsTaken (by decide)
    rwa [List.append_nil] at this

end Sys2Proof.Machine

/-! A change of the helm mode and AUTO's enable word (R107, R110, R116, R121). -/

namespace Sys2Proof.Machine

open Sys2Proof.Config

theorem Follows.trans {bs : List Block} {fs gs : List Event} {s u t : State} (h : Follows bs fs s u) (h' : Follows bs gs u t)
    (hf : Block.ftu ∉ bs) : Follows bs (fs ++ gs) s t :=
  ⟨h.frame.trans h'.frame, by
    rw [h'.sru, h.sru, acceptAll_append]
    simp only [acceptAll_congr (h'.frame.ftu hf)]⟩

/-! ## AUTO's enable word (R110) -/

/-- The claim or the letting go that AUTO's enable word stands for (R110). -/
def autoTaken (v : State) (w : Word) : State := if flagOf w then judgeClaim v .auto else letGo v .auto .autoOff

section
variable {v : State} {w : Word}

theorem autoTaken_on (h : w ≠ 0) : autoTaken v w = judgeClaim v .auto := if_pos (bne_iff_ne.mpr h)
theorem autoTaken_off (h : w = 0) : autoTaken v w = letGo v .auto .autoOff := if_neg (by simp [flagOf, h])

theorem follows_changeHolder (s : State) (old new : Option Claimant) (k : HelmCause) :
    Follows [.helm] [.helmChange old new k] s (changeHolder s old new k) :=
  ⟨writes_changeHolder s old new k, rfl⟩

theorem follows_joined (s : State) (c : Claimant) : Follows [.helm] [] s (joined s c) := ⟨writes_withHelm s _, rfl⟩

theorem follows_preempt_claim (s : State) (h c : Claimant) : Follows [.helm] [.helmChange (some h) (some c) .claim] s (preempt s h c .claim) :=
  ⟨writes_preempt .., rfl⟩

theorem follows_releaseHolder_auto (s : State) (k : HelmCause) :
    Follows [.helm] [.helmChange (some .auto) (successor s) k] s (releaseHolder s .auto k) := by
  have hw : Writes [.helm] s (releaseHolder s .auto k) := by
    rw [releaseHolder_eq]
    exact (((Writes.refl _ s).withHelm _ (by decide)).withHelm _ (by decide)).raise _
  refine ⟨hw, (handedOver_releaseHolder (frees_freed_auto s) k).2.trans ?_⟩
  rw [acceptAll_congr (hw.ftu (by decide))]
  rfl

theorem follows_withdraw_auto (s : State) : Follows [.helm] [] s (withdraw s .auto) := ⟨writes_withHelm s _, rfl⟩

/-- Whatever AUTO's word does, it is HELM's (R110). -/
theorem follows_autoTaken (v : State) (w : Word) : ∃ fs, Follows [.helm] fs v (autoTaken v w) := by
  by_cases hw : w = 0
  · rw [autoTaken_off hw]
    unfold letGo
    split
    · exact ⟨_, follows_releaseHolder_auto v _⟩
    · exact ⟨_, .refl _ v⟩
    · exact ⟨_, follows_withdraw_auto v⟩
  · rw [autoTaken_on hw]
    by_cases hi : claimState v.helm .auto = .idle
    · cases hh : v.helm.holder with
      | none =>
        rw [judgeClaim_free rfl hi hh]
        exact ⟨_, follows_changeHolder ..⟩
      | some h =>
        by_cases ho : outranks v h .auto
        · rw [judgeClaim_preempts rfl hi hh ho]
          exact ⟨_, follows_preempt_claim ..⟩
        · rw [judgeClaim_waits rfl hi hh ho]
          exact ⟨_, follows_joined ..⟩
    · rw [judgeClaim_standing rfl hi]
      exact ⟨_, .refl _ v⟩

end

theorem flagCode_flagOf (w : Word) : flagCode (flagOf w) = if w = 0 then 0 else 1 := by
  by_cases h : w = 0 <;> simp [flagOf, flagCode, h]

theorem takeAutoEnable_eq (s : State) (rest : List Handover) (o : Nat) (w : Word) : takeAutoEnable (afterHandover s rest) o w =
    autoTaken (settled s rest (clampReport o (if w = 0 then 0 else 1) w) { s.sru.set with autoEnable := w != 0 }) w := by
  unfold takeAutoEnable settled
  dsimp only
  rw [reportClamp_eq, flagCode_flagOf, raiseAll_sru_set]
  rfl

/-- The rule of AUTO's enable word (R110). -/
theorem autoEnableWrite_acts (s : State) (w : Word) (rest : List Handover) (h : s.ptp.handovers = .setting 0x3C w :: rest) :
    let report := clampReport 0x3C (if w = 0 then 0 else 1) w
    ∃ t, leaves .autoEnableWrite s t ∧ handoverTaken rest s t ∧
      t.sru.set = { s.sru.set with autoEnable := w != 0 } ∧ onlyChanges [.ptp, .sru, .helm] s t ∧
      (w ≠ 0 → s.helm.holder = none → claimState s.helm .auto = .idle →
        t.helm = { s.helm with holder := some .auto, paused := false, coast := false, cleared := false } ∧
        eventsTaken (report ++ [.helmChange none (some .auto) .claim]) s t) ∧
      (w ≠ 0 → claimState s.helm .auto ≠ .idle → t.helm = s.helm ∧ eventsTaken report s t) ∧
      (∀ h, w ≠ 0 → s.helm.holder = some h → claimState s.helm .auto = .idle →
        s.sru.set.helmMode = .single ∨ levelOf s.sru.set .auto ≤ levelOf s.sru.set h →
        t.helm = { s.helm with waiting := s.helm.waiting ++ [.auto] } ∧ eventsTaken report s t) ∧
      (∀ h, w ≠ 0 → s.helm.holder = some h → claimState s.helm .auto = .idle → s.sru.set.helmMode = .nest →
        levelOf s.sru.set h < levelOf s.sru.set .auto →
        t.helm = { s.helm with holder := some .auto, stack := h :: s.helm.stack, paused := false, coast := false, cleared := false } ∧
        eventsTaken (report ++ [.helmChange (some h) (some .auto) .claim]) s t) ∧
      (w = 0 → s.helm.holder = some .auto → handedOver s t ∧
        eventsTaken (report ++ [.helmChange (some .auto) (successor s) .autoOff]) s t) ∧
      (w = 0 → claimState s.helm .auto = .pending ∨ claimState s.helm .auto = .suspended →
        withdrawn s .auto t ∧ eventsTaken report s t) ∧
      (w = 0 → claimState s.helm .auto = .idle → t.helm = s.helm ∧ eventsTaken report s t) := by
  intro report
  have ha := Acts.autoEnableWrite h rfl
  rw [takeAutoEnable_eq] at ha
  generalize hes : clampReport 0x3C (if w = 0 then 0 else 1) w = es at ha
  generalize hset : { s.sru.set with autoEnable := w != 0 } = cs at ha ⊢
  have hrep : report = es := hes
  have hvh : (settled s rest es cs).helm = s.helm := settled_helm ..
  obtain ⟨fs, hfs⟩ := follows_autoTaken (settled s rest es cs) w
  have same {u : State} (hf : Follows [.helm] [] (settled s rest es cs) u) : eventsTaken report s u := by
    have := hf.eventsTaken (by decide)
    rwa [List.append_nil, ← hrep] at this
  have outs (h : Claimant) : outranks (settled s rest es cs) h .auto ↔ outranks s h .auto := by
    simp only [outranks, settled_set, ← hset]
    cases h <;> rfl
  refine ⟨_, exec_of_acts ha, hfs.handoverTaken (by decide), hfs.set, hfs.onlyChanges (by decide) (by decide), fun hw hh hi => ?_,
    fun hw hi => ?_, fun h hw hh hi hr => ?_, fun h hw hh hi hm hl => ?_, fun hw hh => ?_, fun hw hi => ?_, fun hw hi => ?_⟩
  · rw [autoTaken_on hw, judgeClaim_free rfl (hvh ▸ hi) (hvh ▸ hh), hrep]
    exact ⟨by rw [changeHolder_helm, hvh], (follows_changeHolder ..).eventsTaken (by decide)⟩
  · rw [autoTaken_on hw, judgeClaim_standing rfl (hvh ▸ hi)]
    exact ⟨hvh, same (.refl _ _)⟩
  · rw [autoTaken_on hw, judgeClaim_waits rfl (hvh ▸ hi) (hvh ▸ hh) ((outs h).not.mpr (not_outranks hr)), putStagedOf_auto]
    exact ⟨by rw [joined, State.withHelm_helm, hvh], same (follows_joined ..)⟩
  · rw [autoTaken_on hw, judgeClaim_preempts rfl (hvh ▸ hi) (hvh ▸ hh) ((outs h).mpr ⟨hm, hl⟩), hrep]
    refine ⟨?_, (follows_preempt_claim ..).eventsTaken (by decide)⟩
    rw [preempt, changeHolder_helm, State.withHelm_helm, hvh]
  · have hsucc : successor (settled s rest es cs) = successor s := by
      have hlev : levelOf cs = levelOf s.sru.set := by
        funext c
        rw [← hset]
        cases c <;> rfl
      simp only [successor, hvh, settled_set, hlev]
    have hover := (handedOver_releaseHolder (frees_freed_auto (settled s rest es cs)) .autoOff).1
    rw [autoTaken_off hw, letGo_holder (hvh ▸ hh), hrep, ← hsucc]
    refine ⟨?_, (follows_releaseHolder_auto ..).eventsTaken (by decide)⟩
    rw [handedOver, hsucc, hvh] at hover
    exact hover
  · have hwd := withdrawn_withdraw (settled s rest es cs) .auto
    rw [withdrawn, hvh] at hwd
    rw [autoTaken_off hw, letGo_waiting (hvh ▸ hi)]
    exact ⟨hwd, same (follows_withdraw_auto _)⟩
  · rw [autoTaken_off hw, letGo_idle (hvh ▸ hi)]
    exact ⟨hvh, same (.refl _ _)⟩

/-! ## The change from NEST to SINGLE (R116) -/

theorem follows_putStaged (s : State) (l : Link) : ∃ fs, Follows [.hlr, .helm] fs s (putStaged s l) := by
  have hu := used_putStaged s l
  have hw := writes_putStaged s l
  exact ⟨_, hw, hu.sru.trans (acceptAll_congr (hw.ftu (by decide)) s.sru _).symm⟩

theorem follows_putStagedOf (s : State) (c : Claimant) : ∃ fs, Follows [.hlr, .helm] fs s (putStagedOf s c) := by
  unfold putStagedOf
  split
  · exact follows_putStaged s _
  · exact ⟨[], .refl _ s⟩

theorem follows_foldl_putStagedOf (cs : List Claimant) (s : State) : ∃ fs, Follows [.hlr, .helm] fs s (cs.foldl putStagedOf s) := by
  induction cs generalizing s with
  | nil => exact ⟨[], .refl _ s⟩
  | cons c rest ih =>
    obtain ⟨fs, hf⟩ := follows_putStagedOf s c
    obtain ⟨gs, hg⟩ := ih (putStagedOf s c)
    exact ⟨_, hf.trans hg (by decide)⟩

/-- The claimants of a list have put their staged settings into use, while no one is suspended: for each link, and for those that
wait, by whether the link's claimant is in the list and its settings lose the link (R101, R113, R121). -/
structure StagedUsed (cs : List Claimant) (s t : State) : Prop where
  rest : t.helm = { s.helm with
    waiting := t.helm.waiting, inUse := t.helm.inUse, staged := t.helm.staged, lastDeflection := t.helm.lastDeflection }
  auto : .auto ∈ t.helm.waiting ↔ .auto ∈ s.helm.waiting
  used : ∀ l, claimantOf l ∈ cs → t.helm.staged.get l = [] ∧
    t.helm.inUse.get l = (s.helm.staged.get l).foldl ClaimantSettings.update (s.helm.inUse.get l)
  kept : ∀ l, claimantOf l ∉ cs →
    t.helm.staged.get l = s.helm.staged.get l ∧ t.helm.inUse.get l = s.helm.inUse.get l ∧ t.hlr.get l = s.hlr.get l
  lost : ∀ l, claimantOf l ∈ cs → losesLink (s.hlr.get l) (s.helm.staged.get l) = true →
    (t.hlr.get l).link = .lost ∧ t.helm.lastDeflection.get l = 0 ∧ claimantOf l ∉ t.helm.waiting
  held : ∀ l, ¬(claimantOf l ∈ cs ∧ losesLink (s.hlr.get l) (s.helm.staged.get l) = true) →
    (t.hlr.get l).link = (s.hlr.get l).link ∧ t.helm.lastDeflection.get l = s.helm.lastDeflection.get l ∧
      (claimantOf l ∈ t.helm.waiting ↔ claimantOf l ∈ s.helm.waiting)

theorem StagedUsed.nil (s : State) : StagedUsed [] s s where
  rest := rfl
  auto := Iff.rfl
  used _ h := absurd h List.not_mem_nil
  kept _ _ := ⟨rfl, rfl, rfl⟩
  lost _ h := absurd h List.not_mem_nil
  held _ _ := ⟨rfl, rfl, Iff.rfl⟩

theorem claimantOf_injective {k l : Link} (h : claimantOf k = claimantOf l) : k = l := by
  cases k <;> cases l <;> cases h <;> rfl

theorem claimantOf_ne_auto (l : Link) : claimantOf l ≠ .auto := by cases l <;> simp [claimantOf]

theorem stagedUsed_putStaged {s : State} (hs : s.helm.stack = []) (l : Link) : StagedUsed [claimantOf l] s (putStaged s l) := by
  have hu := used_putStaged s l
  have hinUse := hu.helm ▸ used_inUse (stagingEmptied s l).helm l _ _
  have hstaged : (putStaged s l).helm.staged = s.helm.staged.set l [] := by
    rw [hu.helm, used_eq]
    rfl
  have hwait := hu.helm ▸ used_waiting (stagingEmptied s l).helm l (s.helm.staged.get l) _
  have hlast := hu.helm ▸ used_lastDeflection (stagingEmptied s l).helm l (s.helm.staged.get l) _
  have hlink := hu.link
  have hhlr : (stagingEmptied s l).hlr = s.hlr := rfl
  rw [hhlr] at hwait hlast hlink
  constructor
  case rest =>
    rw [hu.helm, used_eq, used_stack_of_not_mem _ _ (by rw [stagingEmptied, State.withHelm_helm, hs]; simp)]
    rfl
  case auto =>
    rw [hwait]
    split
    · simp [List.mem_filter, (claimantOf_ne_auto l).symm, stagingEmptied]
    · rfl
  case used =>
    intro k hk
    obtain rfl := claimantOf_injective (List.mem_singleton.mp hk)
    rw [hstaged, hinUse, Pair.get_set, Pair.get_set]
    exact ⟨rfl, rfl⟩
  case kept =>
    intro k hk
    have hne : k ≠ l := fun h => hk (h ▸ List.mem_singleton_self _)
    rw [hstaged, hinUse, Pair.get_set_ne _ _ hne, Pair.get_set_ne _ _ hne]
    exact ⟨rfl, rfl, hu.others k hne⟩
  case lost =>
    intro k hk hl
    obtain rfl := claimantOf_injective (List.mem_singleton.mp hk)
    rw [hwait, hlast, hlink, hl]
    simp
  case held =>
    intro k hk
    by_cases hkl : k = l
    · subst hkl
      have hl : losesLink (s.hlr.get k) (s.helm.staged.get k) = false := by simpa using hk
      rw [hwait, hlast, hlink, hl]
      exact ⟨rfl, rfl, Iff.rfl⟩
    · rw [hu.others k hkl, hwait, hlast]
      refine ⟨rfl, ?_, ?_⟩
      · split
        · exact Pair.get_set_ne _ _ hkl
        · rfl
      · have hne : claimantOf k ≠ claimantOf l := fun h => hkl (claimantOf_injective h)
        split
        · simp [List.mem_filter, hne, stagingEmptied]
        · rfl

theorem stagedUsed_putStagedOf {s : State} (hs : s.helm.stack = []) (c : Claimant) : StagedUsed [c] s (putStagedOf s c) := by
  cases hc : linkOf c with
  | none =>
    obtain rfl : c = .auto := by cases c <;> cases hc; rfl
    refine ⟨rfl, Iff.rfl, fun l h => ?_, fun _ _ => ⟨rfl, rfl, rfl⟩, fun l h => ?_, fun _ _ => ⟨rfl, rfl, Iff.rfl⟩⟩
    all_goals exact absurd (List.mem_singleton.mp h) (claimantOf_ne_auto l)
  | some l =>
    obtain rfl : c = claimantOf l := by cases c <;> cases hc <;> rfl
    rw [putStagedOf_claimantOf]
    exact stagedUsed_putStaged hs l

theorem StagedUsed.cons {c : Claimant} {cs : List Claimant} {s u t : State} (h : StagedUsed [c] s u) (h' : StagedUsed cs u t) :
    StagedUsed (c :: cs) s t := by
  have empty {l : Link} (hl : claimantOf l = c) : u.helm.staged.get l = [] := (h.used l (by simp [hl])).1
  have still {l : Link} (hl : claimantOf l ≠ c) := h.kept l (by simp [hl])
  constructor
  case rest => rw [h'.rest, h.rest]
  case auto => exact h'.auto.trans h.auto
  case used =>
    intro l hl
    by_cases hcs : claimantOf l ∈ cs
    · obtain ⟨hst, hin⟩ := h'.used l hcs
      refine ⟨hst, hin.trans ?_⟩
      by_cases hc : claimantOf l = c
      · rw [empty hc]
        exact (h.used l (by simp [hc])).2
      · obtain ⟨hst', hin', -⟩ := still hc
        rw [hst', hin']
    · have hc : claimantOf l = c := (List.mem_cons.mp hl).resolve_right hcs
      obtain ⟨hst, hin, -⟩ := h'.kept l hcs
      obtain ⟨hst', hin'⟩ := h.used l (by simp [hc])
      exact ⟨hst.trans hst', hin.trans hin'⟩
  case kept =>
    intro l hl
    obtain ⟨hc, hcs⟩ : claimantOf l ≠ c ∧ claimantOf l ∉ cs := by simpa using hl
    obtain ⟨hst, hin, hh⟩ := h'.kept l hcs
    obtain ⟨hst', hin', hh'⟩ := still hc
    exact ⟨hst.trans hst', hin.trans hin', hh.trans hh'⟩
  case lost =>
    intro l hl hloses
    by_cases hc : claimantOf l = c
    · obtain ⟨hlink, hlast, hwait⟩ := h.lost l (by simp [hc]) hloses
      obtain ⟨hlink', hlast', hwait'⟩ := h'.held l fun hn => by
        rw [empty hc] at hn
        simp [losesLink] at hn
      exact ⟨hlink'.trans hlink, hlast'.trans hlast, hwait'.not.mpr hwait⟩
    · obtain ⟨hst, -, hh⟩ := still hc
      exact h'.lost l ((List.mem_cons.mp hl).resolve_left hc) (by rw [hst, hh]; exact hloses)
  case held =>
    intro l hn
    obtain ⟨hlink, hlast, hwait⟩ := h.held l fun ⟨hm, hl⟩ => hn ⟨List.mem_cons.mpr (.inl (List.mem_singleton.mp hm)), hl⟩
    obtain ⟨hlink', hlast', hwait'⟩ := h'.held l fun ⟨hm, hl⟩ => by
      by_cases hc : claimantOf l = c
      · rw [empty hc] at hl
        simp [losesLink] at hl
      · obtain ⟨hst, -, hh⟩ := still hc
        exact hn ⟨List.mem_cons_of_mem _ hm, by rwa [hst, hh] at hl⟩
    exact ⟨hlink'.trans hlink, hlast'.trans hlast, hwait'.trans hwait⟩

theorem stagedUsed_foldl {s : State} (hs : s.helm.stack = []) (cs : List Claimant) : StagedUsed cs s (cs.foldl putStagedOf s) := by
  induction cs generalizing s with
  | nil => exact .nil s
  | cons c rest ih =>
    have h := stagedUsed_putStagedOf hs c
    exact h.cons (ih (by rw [h.rest]; exact hs))

/-- Where no staged silence limit comes into use, no link is lost, no one leaves and nothing is raised (R121). -/
theorem foldl_putStagedOf_quiet {cs : List Claimant} {s : State}
    (h : ∀ l n, claimantOf l ∈ cs → .silenceLimit n ∉ s.helm.staged.get l) : (cs.foldl putStagedOf s).helm.waiting = s.helm.waiting ∧
      (cs.foldl putStagedOf s).helm.lastDeflection = s.helm.lastDeflection ∧ (cs.foldl putStagedOf s).sru = s.sru := by
  induction cs generalizing s with
  | nil => exact ⟨rfl, rfl, rfl⟩
  | cons c rest ih =>
    have step : (putStagedOf s c).helm.waiting = s.helm.waiting ∧ (putStagedOf s c).helm.lastDeflection = s.helm.lastDeflection ∧
        (putStagedOf s c).sru = s.sru ∧ ∀ l n, .silenceLimit n ∈ (putStagedOf s c).helm.staged.get l →
          .silenceLimit n ∈ s.helm.staged.get l := by
      cases hc : linkOf c with
      | none =>
        rw [putStagedOf, hc]
        exact ⟨rfl, rfl, rfl, fun _ _ => id⟩
      | some l =>
        obtain rfl : c = claimantOf l := by cases c <;> cases hc <;> rfl
        have hu := used_putStaged s l
        have hl := losesLink_eq_false (x := (stagingEmptied s l).hlr.get l) fun n => h l n List.mem_cons_self
        have hhelm := hu.helm
        have hsru := hu.sru
        rw [hl] at hhelm hsru
        rw [putStagedOf_claimantOf, hhelm, hsru]
        refine ⟨rfl, rfl, rfl, fun k n hm => ?_⟩
        have hm' : .silenceLimit n ∈ (s.helm.staged.set l []).get k := hm
        by_cases hk : k = l
        · subst hk
          rw [Pair.get_set] at hm'
          cases hm'
        · rwa [Pair.get_set_ne _ _ hk] at hm'
    obtain ⟨hw, hd, hs, hst⟩ := step
    obtain ⟨hw', hd', hs'⟩ := ih (s := putStagedOf s c) fun l n hm hin => h l n (List.mem_cons_of_mem _ hm) (hst l n hin)
    exact ⟨hw'.trans hw, hd'.trans hd, hs'.trans hs⟩

theorem putStagedOf_nothing {s : State} (h : s.helm.staged = ⟨[], []⟩) (c : Claimant) : putStagedOf s c = s := by
  cases hc : linkOf c with
  | none => rw [putStagedOf, hc]
  | some l =>
    have hget : s.helm.staged.get l = [] := by
      rw [h]
      cases l <;> rfl
    have hset : s.helm.staged.set l [] = s.helm.staged := by rw [← hget, Pair.set_get]
    rw [putStagedOf, hc]
    show putStaged s l = s
    rw [putStaged, hget, hset]
    rfl

theorem foldl_putStagedOf_nothing {s : State} (h : s.helm.staged = ⟨[], []⟩) (cs : List Claimant) : cs.foldl putStagedOf s = s := by
  induction cs with
  | nil => rfl
  | cons c rest ih => rw [List.foldl_cons, putStagedOf_nothing h, ih]

end Sys2Proof.Machine

/-! The settings that act at the helm when they are taken (R106, R107, R110, R115, R116). -/

namespace Sys2Proof.Machine

open Sys2Proof.Config

/-- The state in which everyone suspended has become pending (R116). -/
def allPending (v : State) : State := v.withHelm { v.helm with stack := [], waiting := v.helm.waiting ++ v.helm.stack }

theorem suspendedToPending_eq (v : State) : suspendedToPending v = v.helm.stack.foldl putStagedOf (allPending v) := rfl

theorem follows_suspendedToPending (v : State) : ∃ fs, Follows [.hlr, .helm] fs v (suspendedToPending v) := by
  obtain ⟨fs, hf⟩ := follows_foldl_putStagedOf v.helm.stack (allPending v)
  exact ⟨fs, ((Writes.refl _ v).withHelm _ (by decide)).trans hf.frame, hf.sru⟩

/-- The mode a word is taken as replaces the working one, and its report is raised (R107, R187). -/
def modeSettled (s : State) (rest : List Handover) (w : Word) : State :=
  settled s rest (clampReport 0x2C (if w = 0 then 0 else 1) w) { s.sru.set with helmMode := helmModeOf w }

theorem helmModeCode_helmModeOf (w : Word) : helmModeCode (helmModeOf w) = if w = 0 then 0 else 1 := by
  unfold helmModeOf
  split <;> rfl

theorem takeHelmMode_eq (s : State) (rest : List Handover) (w : Word) : takeHelmMode (afterHandover s rest) 0x2C w =
    match s.sru.set.helmMode, helmModeOf w with
    | .nest, .single => suspendedToPending (modeSettled s rest w)
    | .single, .nest => preemptionTest (modeSettled s rest w) .mode
    | _, _ => modeSettled s rest w := by
  unfold takeHelmMode modeSettled settled
  dsimp only
  rw [reportClamp_eq, helmModeCode_helmModeOf, raiseAll_sru_set]
  rfl

/-- The mode part of HELM's settings (R107, R116). -/
def ModeActs (s : State) (w : Word) (rest : List Handover) : Prop :=
    let m : HelmMode := if w = 0 then .nest else .single
    let report := clampReport 0x2C (if w = 0 then 0 else 1) w
    ∃ t, leaves .helmModeWrite s t ∧ handoverTaken rest s t ∧ t.sru.set = { s.sru.set with helmMode := m } ∧
      onlyChanges [.ptp, .sru, .helm, .hlr] s t ∧
      (s.sru.set.helmMode = m → t.helm = s.helm ∧ t.hlr = s.hlr ∧ eventsTaken report s t) ∧
      (s.sru.set.helmMode = .nest → m = .single → s.helm.staged = ⟨[], []⟩ →
        t.helm = { s.helm with stack := [], waiting := s.helm.waiting ++ s.helm.stack } ∧ t.hlr = s.hlr ∧
        eventsTaken report s t) ∧
      (s.sru.set.helmMode = .nest → m = .single →
        t.helm = { s.helm with
          stack := [], waiting := t.helm.waiting, inUse := t.helm.inUse, staged := t.helm.staged
          lastDeflection := t.helm.lastDeflection } ∧
        (.auto ∈ t.helm.waiting ↔ .auto ∈ s.helm.waiting ∨ .auto ∈ s.helm.stack) ∧
        ∀ l : Link, let c := claimantOf l
          let x := s.hlr.get l
          let staged := s.helm.staged.get l
          let loses := c ∈ s.helm.stack ∧ (x.link = .suspect ∨ x.link = .active) ∧
            ∃ n, .silenceLimit n ∈ staged ∧ n ≠ 0 ∧ n ≤ x.silence
          (c ∈ s.helm.stack → t.helm.staged.get l = [] ∧
            t.helm.inUse.get l = staged.foldl ClaimantSettings.update (s.helm.inUse.get l)) ∧
          (c ∉ s.helm.stack → t.helm.staged.get l = staged ∧ t.helm.inUse.get l = s.helm.inUse.get l ∧ t.hlr.get l = x) ∧
          (loses → (t.hlr.get l).link = .lost ∧ t.helm.lastDeflection.get l = 0 ∧ c ∉ t.helm.waiting) ∧
          (¬loses → (t.hlr.get l).link = x.link ∧ t.helm.lastDeflection.get l = s.helm.lastDeflection.get l ∧
            (c ∈ t.helm.waiting ↔ c ∈ s.helm.waiting ∨ c ∈ s.helm.stack))) ∧
      (s.sru.set.helmMode = .nest → m = .single →
        (∀ l n, claimantOf l ∈ s.helm.stack → .silenceLimit n ∉ s.helm.staged.get l) →
        t.helm.waiting = s.helm.waiting ++ s.helm.stack ∧ t.helm.lastDeflection = s.helm.lastDeflection ∧
        eventsTaken report s t) ∧
      (∀ h d, s.sru.set.helmMode = .single → m = .nest → s.helm.holder = some h → successor s = some d →
        levelOf s.sru.set h < levelOf s.sru.set d →
        preempted s h d t ∧ t.hlr = s.hlr ∧ eventsTaken (report ++ [.helmChange (some h) (some d) .mode]) s t) ∧
      (s.sru.set.helmMode = .single → m = .nest →
        (∀ h d, s.helm.holder = some h → successor s = some d → levelOf s.sru.set d ≤ levelOf s.sru.set h) →
        t.helm = s.helm ∧ t.hlr = s.hlr ∧ eventsTaken report s t)

section
variable {s : State} {w : Word} {rest : List Handover} (h : s.ptp.handovers = .setting 0x2C w :: rest)
include h

theorem acts_helmMode : Acts s .helmModeWrite true (takeHelmMode (afterHandover s rest) 0x2C w) := .helmModeWrite h rfl

/-- The same mode again changes nothing (R116). -/
theorem modeActs_same (hm : s.sru.set.helmMode = helmModeOf w) : ModeActs s w rest := by
  have ha := acts_helmMode h
  have heq : takeHelmMode (afterHandover s rest) 0x2C w = modeSettled s rest w := by
    rw [takeHelmMode_eq, hm]
    cases helmModeOf w <;> rfl
  have hf := Follows.refl [] (modeSettled s rest w)
  have hev := hf.eventsTaken (by decide)
  rw [List.append_nil] at hev
  rw [heq] at ha
  have differ {a b : HelmMode} (ha : s.sru.set.helmMode = a) (hb : helmModeOf w = b) (hab : a ≠ b) : False :=
    hab (ha.symm.trans (hm.trans hb))
  exact ⟨_, exec_of_acts ha, hf.handoverTaken (by decide), hf.set, hf.onlyChanges (by decide) (by decide),
    fun _ => ⟨settled_helm .., settled_hlr .., hev⟩, fun h1 h2 => (differ h1 h2 (by decide)).elim,
    fun h1 h2 => (differ h1 h2 (by decide)).elim, fun h1 h2 => (differ h1 h2 (by decide)).elim,
    fun _ _ h1 h2 => (differ h1 h2 (by decide)).elim, fun h1 h2 => (differ h1 h2 (by decide)).elim⟩

/-- From SINGLE to NEST the preemption test is run (R116). -/
theorem modeActs_nest (hs : s.sru.set.helmMode = .single) (hm : helmModeOf w = .nest) : ModeActs s w rest := by
  have ha := acts_helmMode h
  have heq : takeHelmMode (afterHandover s rest) 0x2C w = preemptionTest (modeSettled s rest w) .mode := by
    rw [takeHelmMode_eq, hs, hm]
  rw [heq] at ha
  have hhelm : (modeSettled s rest w).helm = s.helm := settled_helm ..
  have hmode : (modeSettled s rest w).sru.set.helmMode = .nest := by rw [modeSettled, settled_set, hm]
  have hlev : levelOf (modeSettled s rest w).sru.set = levelOf s.sru.set := by
    rw [modeSettled, settled_set]
    funext c
    cases c <;> rfl
  have hsucc : successor (modeSettled s rest w) = successor s := by rw [successor, successor, hhelm, hlev]
  have differ {a : HelmMode} (ha : s.sru.set.helmMode = a) (ha' : a ≠ .single) : False := ha' (ha.symm.trans hs)
  have differ' (hx : s.sru.set.helmMode = helmModeOf w) : False := by
    rw [hs, hm] at hx
    cases hx
  by_cases hp : ∃ h d, s.helm.holder = some h ∧ successor s = some d ∧ levelOf s.sru.set h < levelOf s.sru.set d
  · obtain ⟨h, d, hh, hd, hl⟩ := hp
    have hf := follows_preempt (modeSettled s rest w) h d .mode
    rw [preemptionTest_preempts hmode (by rw [hhelm, hh]) (hsucc.trans hd) (by rw [hlev]; exact hl)] at ha
    refine ⟨_, exec_of_acts ha, hf.handoverTaken (by decide), hf.set, hf.onlyChanges (by decide) (by decide),
      fun hx => (differ' hx).elim, fun h1 => (differ h1 (by decide)).elim, fun h1 => (differ h1 (by decide)).elim,
      fun h1 => (differ h1 (by decide)).elim, fun h' d' _ _ hh' hd' _ => ?_, fun _ _ hn => absurd hl (Nat.not_lt.mpr (hn h d hh hd))⟩
    obtain rfl : h = h' := Option.some.inj (hh.symm.trans hh')
    obtain rfl : d = d' := Option.some.inj (hd.symm.trans hd')
    refine ⟨?_, (hf.frame.hlr (by decide)).trans (settled_hlr ..), hf.eventsTaken (by decide)⟩
    rw [preempted, preempt, changeHolder_helm, State.withHelm_helm, State.withHelm_helm, hhelm]
    rfl
  · have hstay : ∀ h d, s.helm.holder = some h → successor s = some d → levelOf s.sru.set d ≤ levelOf s.sru.set h :=
      fun h d hh hd => Nat.not_lt.mp fun hl => hp ⟨h, d, hh, hd, hl⟩
    have hf := Follows.refl [] (modeSettled s rest w)
    have hev := hf.eventsTaken (by decide)
    rw [List.append_nil] at hev
    rw [preemptionTest_stays (fun h d _ hh hd => by
      rw [hhelm] at hh
      rw [hlev]
      exact hstay h d hh (hsucc ▸ hd))] at ha
    exact ⟨_, exec_of_acts ha, hf.handoverTaken (by decide), hf.set, hf.onlyChanges (by decide) (by decide),
      fun hx => (differ' hx).elim, fun h1 => (differ h1 (by decide)).elim, fun h1 => (differ h1 (by decide)).elim,
      fun h1 => (differ h1 (by decide)).elim, fun h d _ _ hh hd hl => absurd hl (Nat.not_lt.mpr (hstay h d hh hd)),
      fun _ _ _ => ⟨hhelm, settled_hlr .., hev⟩⟩

/-- From NEST to SINGLE everyone suspended becomes pending, with his staged settings in use (R116). -/
theorem modeActs_single (hs : s.sru.set.helmMode = .nest) (hm : helmModeOf w = .single) : ModeActs s w rest := by
  have ha := acts_helmMode h
  have heq : takeHelmMode (afterHandover s rest) 0x2C w = suspendedToPending (modeSettled s rest w) := by
    rw [takeHelmMode_eq, hs, hm]
  rw [heq] at ha
  have hhelm : (modeSettled s rest w).helm = s.helm := settled_helm ..
  have hhlr : (modeSettled s rest w).hlr = s.hlr := settled_hlr ..
  obtain ⟨fs, hf⟩ := follows_suspendedToPending (modeSettled s rest w)
  have hfold : suspendedToPending (modeSettled s rest w) = s.helm.stack.foldl putStagedOf (allPending (modeSettled s rest w)) := by
    rw [suspendedToPending_eq, hhelm]
  have hpend : (allPending (modeSettled s rest w)).helm = { s.helm with stack := [], waiting := s.helm.waiting ++ s.helm.stack } := by
    rw [allPending, State.withHelm_helm, hhelm]
  have hpendh : (allPending (modeSettled s rest w)).hlr = s.hlr := hhlr
  have quiet {u : State} (hu : u.sru = (modeSettled s rest w).sru) (hw : Writes [.hlr, .helm] (modeSettled s rest w) u) :
      eventsTaken (clampReport 0x2C (if w = 0 then 0 else 1) w) s u := by
    have hev := Follows.eventsTaken (fs := []) ⟨hw, hu⟩ (by decide)
    rwa [List.append_nil] at hev
  have hused := stagedUsed_foldl (s := allPending (modeSettled s rest w)) (by rw [hpend]) s.helm.stack
  rw [← hfold] at hused
  have differ {b : HelmMode} (hx : s.sru.set.helmMode = b) (hb : b ≠ .nest) : False := hb (hx.symm.trans hs)
  refine ⟨_, exec_of_acts ha, hf.handoverTaken (by decide), hf.set, hf.onlyChanges (by decide) (by decide),
    fun hx => (differ hx (by rw [show (if w = 0 then HelmMode.nest else .single) = .single from hm]; decide)).elim, fun _ _ hst => ?_, fun _ _ => ?_,
    fun _ _ hn => ?_, fun _ _ h1 => (differ h1 (by decide)).elim, fun h1 => (differ h1 (by decide)).elim⟩
  · have hnone : suspendedToPending (modeSettled s rest w) = allPending (modeSettled s rest w) := by
      rw [hfold, foldl_putStagedOf_nothing (by rw [hpend, ← hst])]
    rw [hnone] at hf ⊢
    exact ⟨hpend, hpendh, quiet rfl hf.frame⟩
  · have hrest := hused.rest
    have hauto := hused.auto
    rw [hpend] at hrest hauto
    refine ⟨hrest, hauto.trans List.mem_append, fun l => ?_⟩
    have hu := hused.used l
    have hk := hused.kept l
    have hl := hused.lost l
    have hh := hused.held l
    rw [hpend] at hu hk hl hh
    rw [hpendh] at hk hl hh
    rw [losesLink_iff] at hl hh
    exact ⟨hu, hk, fun ⟨h1, h2⟩ => hl h1 h2, fun hn => (by
      obtain ⟨h1, h2, h3⟩ := hh hn
      exact ⟨h1, h2, h3.trans List.mem_append⟩)⟩
  · obtain ⟨hw, hd, hsru⟩ := foldl_putStagedOf_quiet (cs := s.helm.stack) (s := allPending (modeSettled s rest w)) (by
      rw [hpend]
      exact hn)
    rw [← hfold, hpend] at hw hd
    rw [← hfold] at hsru
    exact ⟨hw, hd, quiet hsru hf.frame⟩

end

/-- Settles O41. -/
theorem helmSettingsAct : Obligations.HelmSettingsAct := by
  refine ⟨fun s c w rest => ?_, fun s w rest h => ?_, autoEnableWrite_acts⟩
  · intro o h
    exact levelWrite_acts h (by cases c <;> rfl) rfl
  · show ModeActs s w rest
    cases hs : s.sru.set.helmMode <;> cases hm : helmModeOf w
    · exact modeActs_same h (hs.trans hm.symm)
    · exact modeActs_single h hs hm
    · exact modeActs_nest h hs hm
    · exact modeActs_same h (hs.trans hm.symm)

end Sys2Proof.Machine

/-! A claimant's settings, in use or staged, clamped and reported, and the curves loaded (R94, R95, R121, R122, R180). -/

namespace Sys2Proof.Machine

open Sys2Proof.Config

/-! ## A claimant's word (R180) -/

theorem clamp_ne {lo hi : Nat} (h : lo ≤ hi) (n : Nat) : (clamp lo hi n != n) = decide (n < lo ∨ hi < n) := by
  rw [Bool.eq_iff_iff, bne_iff_ne, decide_eq_true_eq, clamp]
  omega

theorem flagCode_ne (w : Word) : (flagCode (flagOf w) != w.toNat) = decide (1 < w.toNat) := by
  rw [flagCode_flagOf, Bool.eq_iff_iff, bne_iff_ne, decide_eq_true_eq]
  split
  · next h => simp [h]
  · next h =>
    have h0 : w.toNat ≠ 0 := fun e => h (BitVec.eq_of_toNat_eq e)
    omega

theorem actionOf_eq (b : Byte) : actionOf b =
    [Action.none, .take, .release, .pause, .mark, .returnMark, .nextStory, .prevStory].getD (if b.toNat < 8 then b.toNat else 0) .none := by
  unfold actionOf
  generalize b.toNat = n
  by_cases h : n < 8
  · rw [if_pos h]
    interval_cases n <;> rfl
  · rw [if_neg h]
    obtain ⟨k, rfl⟩ := Nat.exists_eq_add_of_le' (Nat.not_lt.mp h)
    rfl

theorem actionCode_actionOf (b : Byte) : actionCode (actionOf b) = if b.toNat < 8 then b.toNat else 0 := by
  rw [actionOf_eq]
  generalize b.toNat = n
  by_cases h : n < 8
  · rw [if_pos h]
    interval_cases n <;> rfl
  · rw [if_neg h]
    rfl

theorem edgeOf_eq (b : Byte) : edgeOf b = [Edge.press, .lift, .both].getD (min 2 b.toNat) .both := by
  unfold edgeOf
  generalize b.toNat = n
  by_cases h : n < 2
  · interval_cases n <;> rfl
  · obtain ⟨k, rfl⟩ := Nat.exists_eq_add_of_le' (Nat.not_lt.mp h)
    rw [Nat.min_eq_left (by omega)]
    rfl

theorem edgeCode_edgeOf (b : Byte) : edgeCode (edgeOf b) = min 2 b.toNat := by
  rw [edgeOf_eq]
  generalize b.toNat = n
  by_cases h : n < 2
  · interval_cases n <;> rfl
  · rw [Nat.min_eq_left (by omega)]
    rfl

theorem pressCountOf_eq (b : Byte) : pressCountOf b = if b.toNat ≤ 1 then 1 else if b.toNat = 2 then 2 else 4 := by
  unfold pressCountOf
  generalize b.toNat = n
  by_cases h : n < 3
  · interval_cases n <;> rfl
  · obtain ⟨k, rfl⟩ := Nat.exists_eq_add_of_le' (Nat.not_lt.mp h)
    rw [if_neg (by omega), if_neg (by omega)]
    rfl

theorem laneOf_toNat (w : Word) (i : Nat) : (laneOf w i).toNat = w.toNat / 2 ^ (8 * i) % 256 := by
  simp [laneOf, Nat.shiftRight_eq_div_pow]

/-- The word of a button map entry is the word written, byte 3 apart, exactly where each byte is a code (R180). -/
theorem buttonWord_ne (w : Word) : ((buttonWord (buttonOf w)).setWidth 24 != w.setWidth 24) =
    decide (7 < (laneOf w 0).toNat ∨ 2 < (laneOf w 1).toNat ∨
      ((laneOf w 2).toNat ≠ 1 ∧ (laneOf w 2).toNat ≠ 2 ∧ (laneOf w 2).toNat ≠ 4)) := by
  rw [Bool.eq_iff_iff, bne_iff_ne, decide_eq_true_eq, ne_eq, ← BitVec.toNat_inj]
  simp only [buttonWord, buttonOf, actionCode_actionOf, edgeCode_edgeOf, pressCountOf_eq, BitVec.toNat_setWidth, BitVec.toNat_ofNat]
  have h0 := laneOf_toNat w 0
  have h1 := laneOf_toNat w 1
  have h2 := laneOf_toNat w 2
  generalize (laneOf w 0).toNat = a at *
  generalize (laneOf w 1).toNat = e at *
  generalize (laneOf w 2).toNat = c at *
  norm_num at h0 h1 h2
  split_ifs <;> omega

theorem takeClaimantWord_eq (w : Word) : let n := w.toNat
    let flag : Bool := w != 0
    let code := if w = 0 then 0 else 1
    let number (lo hi : Nat) (f : Nat → ClaimantUpdate) : TakenClaimant :=
      ⟨f (max lo (min hi n)), max lo (min hi n), decide (n < lo ∨ hi < n)⟩
    takeClaimantWord .curve w = ⟨.curve flag, code, decide (1 < n)⟩ ∧
    takeClaimantWord .claimOnMove w = ⟨.claimOnMove flag, code, decide (1 < n)⟩ ∧
    takeClaimantWord .deadZone w = number 0 31 .deadZone ∧ takeClaimantWord .scale w = number 1 32 .scale ∧
    takeClaimantWord .debounce w = number 1 4 .debounce ∧
    takeClaimantWord .pressWindow w = number 100 2000 .pressWindow ∧
    takeClaimantWord .silenceLimit w = number 0 80 .silenceLimit := by
  have flag (mk : Bool → ClaimantUpdate) : (⟨mk (flagOf w), flagCode (flagOf w), flagCode (flagOf w) != w.toNat⟩ : TakenClaimant) =
      ⟨mk (w != 0), if w = 0 then 0 else 1, decide (1 < w.toNat)⟩ := by rw [flagCode_ne, flagCode_flagOf]; rfl
  have number (mk : Nat → ClaimantUpdate) {lo hi : Nat} (h : lo ≤ hi) :
      (⟨mk (clamp lo hi w.toNat), clamp lo hi w.toNat, clamp lo hi w.toNat != w.toNat⟩ : TakenClaimant) =
        ⟨mk (max lo (min hi w.toNat)), max lo (min hi w.toNat), decide (w.toNat < lo ∨ hi < w.toNat)⟩ := by rw [clamp_ne h]; rfl
  exact ⟨flag _, flag _, number _ (by decide), number _ (by decide), number _ (by decide), number _ (by decide), number _ (by decide)⟩

/-! ## A setting in use or staged (R94, R95, R121) -/

theorem settled_same (s : State) (rest : List Handover) (es : List Event) :
    settled s rest es s.sru.set = raiseAll (afterHandover s rest) es := by
  have h : (raiseAll (afterHandover s rest) es).sru.set = s.sru.set := raiseAll_sru_set _ _
  rw [settled, ← h]
  rfl

/-- The state in which a claimant's word has been reported and its setting has done nothing yet (R187). -/
def reported (s : State) (rest : List Handover) (es : List Event) : State := settled s rest es s.sru.set

/-- A claimant that is IDLE or PENDING puts a setting into use at once (R121). -/
def usesAtOnce (s : State) (l : Link) : Prop :=
  claimState s.helm (claimantOf l) = .idle ∨ claimState s.helm (claimantOf l) = .pending

/-- The report of a claimant's word that its setting differs from (R187). -/
def claimantReport (o : Nat) (f : ClaimantField) (w : Word) : List Event :=
  if (takeClaimantWord f w).clamped then [.settingClamped o (.ofNat 16 (takeClaimantWord f w).effective) w] else []

theorem reported_claimantReport (s : State) (rest : List Handover) (o : Nat) (f : ClaimantField) (w : Word) :
    reported s rest (claimantReport o f w) = if (takeClaimantWord f w).clamped
      then raise (afterHandover s rest) (.settingClamped o (.ofNat 16 (takeClaimantWord f w).effective) w) else afterHandover s rest := by
  rw [reported, settled_same, claimantReport]
  split <;> rfl

theorem takeClaimantSetting_now {s : State} {l : Link} (h : usesAtOnce s l) (rest : List Handover) (o : Nat) (f : ClaimantField) (w : Word) :
    takeClaimantSetting (afterHandover s rest) o l f w = putIntoUse l (reported s rest (claimantReport o f w)) (takeClaimantWord f w).update := by
  unfold takeClaimantSetting
  dsimp only
  rw [← reported_claimantReport, reported, settled_helm]
  rcases h with h | h <;> rw [h]

theorem takeClaimantSetting_later {s : State} {l : Link} (h : ¬usesAtOnce s l) (rest : List Handover) (o : Nat) (f : ClaimantField) (w : Word) :
    takeClaimantSetting (afterHandover s rest) o l f w = (reported s rest (claimantReport o f w)).withHelm { s.helm with
      staged := s.helm.staged.set l (stage (s.helm.staged.get l) (takeClaimantWord f w).update) } := by
  obtain ⟨hi, hp⟩ := not_or.mp h
  unfold takeClaimantSetting
  dsimp only
  rw [← reported_claimantReport, reported, settled_helm]
  cases hc : claimState s.helm (claimantOf l) with
  | idle => exact absurd hc hi
  | pending => exact absurd hc hp
  | _ => rfl

theorem claimState_used_lost {x : Helm} {l : Link} (us : List ClaimantUpdate) (h : x.holder ≠ some (claimantOf l)) :
    claimState (x.used l us true) (claimantOf l) = .idle := by
  rw [claimState_idle, claimants, used_eq, used_stack, used_waiting]
  cases hh : x.holder with
  | none => simp
  | some c =>
    have hne : claimantOf l ≠ c := fun e => h (by rw [hh, e])
    simp [hne]

theorem not_holding_of_waits {x : Helm} {c : Claimant} (h : claimState x c = .idle ∨ claimState x c = .pending) : x.holder ≠ some c := by
  intro hh
  rw [claimState_holding.mpr hh] at h
  rcases h with h | h <;> cases h

theorem silent_eq_false {x : Hlr} {n : Nat} (h : n = 0 ∨ x.silence < n ∨ x.link = .absent ∨ x.link = .lost) : x.silent n = false := by
  unfold Hlr.silent
  rcases h with rfl | h | h | h
  · simp
  · simp [Nat.not_le.mpr h]
  · simp [h]
  · simp [h]

theorem silent_eq_true {x : Hlr} {n : Nat} (hn : n ≠ 0) (hs : n ≤ x.silence) (h : x.link = .suspect ∨ x.link = .active) :
    x.silent n = true := by
  unfold Hlr.silent
  rcases h with h | h <;> simp [h, hn, hs]

theorem losesLink_silenceLimit (x : Hlr) (n : Nat) : losesLink x [.silenceLimit n] = x.silent n := Bool.or_false _

/-- What comes into use follows the word's report (R95, R121). -/
theorem follows_putIntoUse (l : Link) (s : State) (u : ClaimantUpdate) :
    Follows [.hlr, .helm] (if losesLink (s.hlr.get l) [u] then [.linkState l .lost] else []) s (putIntoUse l s u) := by
  have hu := used_putIntoUse l s u
  exact ⟨hu.frame, hu.sru.trans (acceptAll_congr (hu.frame.ftu (by decide)) s.sru _).symm⟩

/-- A claimant's setting put into use at once (R94, R95, R100, R121). -/
theorem setting_used {s t : State} {l : Link} {rest : List Handover} {es : List Event} {u : ClaimantUpdate} (hw : usesAtOnce s l)
    (ht : t = putIntoUse l (reported s rest es) u) :
    handoverTaken rest s t ∧ onlyChanges [.ptp, .sru, .helm, .hlr] s t ∧ t.sru.set = s.sru.set ∧
      (t.helm.inUse = s.helm.inUse.set l ((s.helm.inUse.get l).update u) ∧ t.helm.staged = s.helm.staged) ∧
      ((∀ n, u ≠ .silenceLimit n) → eventsTaken es s t ∧ t.helm = { s.helm with inUse := t.helm.inUse } ∧
        (∀ b e, u = .button b e → t.hlr = s.hlr.set l (s.hlr.get l).clearPresses) ∧
        (∀ k, u = .debounce k → t.hlr = s.hlr.set l (s.hlr.get l).clearAgree) ∧
        ((∀ b e, u ≠ .button b e) → (∀ k, u ≠ .debounce k) → t.hlr = s.hlr)) ∧
      (∀ n, u = .silenceLimit n → (s.hlr.get l).silent n = false →
        eventsTaken es s t ∧ t.helm = { s.helm with inUse := t.helm.inUse } ∧ t.hlr = s.hlr) ∧
      (∀ n, u = .silenceLimit n → (s.hlr.get l).silent n = true →
        (t.hlr.get l).link = .lost ∧ claimState t.helm (claimantOf l) = .idle ∧ eventsTaken (es ++ [.linkState l .lost]) s t) := by
  subst ht
  have hv : (reported s rest es).helm = s.helm := settled_helm ..
  have hvl : (reported s rest es).hlr = s.hlr := settled_hlr ..
  have hf := follows_putIntoUse l (reported s rest es) u
  have hu := used_putIntoUse l (reported s rest es) u
  have hev := hf.eventsTaken (by decide)
  have hhelm := hu.helm
  have hlink := hu.link
  rw [hvl] at hhelm hlink hev
  rw [hv] at hhelm
  have quiet (hl : losesLink (s.hlr.get l) [u] = false) : eventsTaken es s (putIntoUse l (reported s rest es) u) ∧
      (putIntoUse l (reported s rest es) u).helm = { s.helm with inUse := (putIntoUse l (reported s rest es) u).helm.inUse } := by
    rw [hl] at hhelm hev
    exact ⟨by simpa using hev, by rw [hhelm]; rfl⟩
  refine ⟨hf.handoverTaken (by decide), hf.onlyChanges (by decide) (by decide), hf.set, ?_, fun hns => ?_, fun n hn hk => ?_, fun n hn hk => ?_⟩
  · rw [hhelm]
    exact ⟨used_inUse .., by rw [used_eq]⟩
  · obtain ⟨hev', hh'⟩ := quiet (losesLink_eq_false fun n hm => hns n (List.mem_singleton.mp hm).symm)
    refine ⟨hev', hh', ?_, ?_, fun hnb hnd => ?_⟩
    · rintro b e rfl
      rw [← hvl]
      rfl
    · rintro k rfl
      rw [← hvl]
      rfl
    · refine Eq.trans ?_ hvl
      cases u with
      | button b e => exact absurd rfl (hnb b e)
      | debounce k => exact absurd rfl (hnd k)
      | silenceLimit n => exact absurd rfl (hns n)
      | _ => rfl
  · subst hn
    obtain ⟨hev', hh'⟩ := quiet (by rw [losesLink_silenceLimit, hk])
    refine ⟨hev', hh', ?_⟩
    have hp : putIntoUse l (reported s rest es) (.silenceLimit n) = settingUsed l (reported s rest es) (.silenceLimit n) :=
      if_neg (by rw [State.withHelm_hlr, hvl, hk]; simp)
    rw [hp]
    exact hvl
  · subst hn
    rw [losesLink_silenceLimit, hk] at hhelm hev hlink
    exact ⟨hlink, by rw [hhelm]; exact claimState_used_lost _ (not_holding_of_waits hw), hev⟩

/-- A claimant's setting staged (R121). -/
theorem setting_staged {s t : State} {l : Link} {rest : List Handover} {es : List Event} {u : ClaimantUpdate}
    (ht : t = (reported s rest es).withHelm { s.helm with staged := s.helm.staged.set l (stage (s.helm.staged.get l) u) }) :
    handoverTaken rest s t ∧ onlyChanges [.ptp, .sru, .helm, .hlr] s t ∧ t.sru.set = s.sru.set ∧ eventsTaken es s t ∧ t.hlr = s.hlr ∧
      t.helm = { s.helm with staged := s.helm.staged.set l (stage (s.helm.staged.get l) u) } := by
  subst ht
  have hf : Follows [.helm] [] (reported s rest es) ((reported s rest es).withHelm { s.helm with
      staged := s.helm.staged.set l (stage (s.helm.staged.get l) u) }) := ⟨writes_withHelm _ _, rfl⟩
  have hev := hf.eventsTaken (by decide)
  rw [List.append_nil] at hev
  exact ⟨hf.handoverTaken (by decide), hf.onlyChanges (by decide) (by decide), hf.set, hev, settled_hlr s rest es s.sru.set, rfl⟩

/-- Settles O42. -/
theorem claimantSettingsTaken : Obligations.ClaimantSettingsTaken := by
  refine ⟨fun s o l f w rest h hc => ?_, fun s hd => ?_, fun l => ?_, fun w => ?_⟩
  · have ha := Acts.claimantSettingWrite h hc
    refine ⟨_, exec_of_acts ha, ?_⟩
    by_cases hw : usesAtOnce s l
    · obtain ⟨h1, h2, h3, h4, h5, h6, h7⟩ := setting_used hw (takeClaimantSetting_now hw rest o f w)
      exact ⟨h1, h2, h3, fun _ => h4, fun _ => h5, fun n _ hn hk => h6 n hn (silent_eq_false hk),
        fun n _ hn h0 hs hk => h7 n hn (silent_eq_true h0 hs hk), fun hnw => absurd hw hnw⟩
    · obtain ⟨h1, h2, h3, h4⟩ := setting_staged (takeClaimantSetting_later hw rest o f w)
      exact ⟨h1, h2, h3, fun hx => absurd hx hw, fun hx => absurd hx hw, fun _ hx => absurd hx hw, fun _ hx => absurd hx hw, fun _ => h4⟩
  · have ha := Acts.curveLoad hd
    obtain ⟨he, hc⟩ := ha.changes (bs := [.helm, .ftu]) (((Writes.refl _ s).withFtu _ (by decide)).withHelm _ (by decide)) (.inr rfl)
    exact ⟨_, he, hc, by rw [arbitrate_helm]; rfl, by rw [arbitrate_ftu]; rfl⟩
  · refine ⟨by cases l <;> rfl, fun b hb => ?_⟩
    cases l <;> interval_cases b <;> rfl
  · obtain ⟨h1, h2, h3, h4, h5, h6, h7⟩ := takeClaimantWord_eq w
    refine ⟨h1, h2, h3, h4, h5, h6, h7, fun b => ?_⟩
    rw [show takeClaimantWord (.button b) w =
      ⟨.button b (buttonOf w), buttonCode (buttonOf w), (buttonWord (buttonOf w)).setWidth 24 != w.setWidth 24⟩ from rfl, buttonWord_ne]
    simp only [buttonCode, buttonOf, actionCode_actionOf, edgeCode_edgeOf]
    simp only [actionOf_eq, edgeOf_eq, pressCountOf_eq]

end Sys2Proof.Machine

/-! The buttons of a hand unit, and the timers of its receiver (R93 to R103, R113, R184). -/

namespace Sys2Proof.Machine

open Sys2Proof.Config

/-! ## A button against its bit (R93, R94, R96, R97) -/

section
variable {x : Button} {k n window : Nat} {bit : Bool}

theorem debounce_agrees (h : bit = x.pressed) : x.debounce k bit = ({ x with agree := 0 }, none) := if_pos h
theorem debounce_waits (h : bit ≠ x.pressed) (hk : x.agree + 1 < k) : x.debounce k bit = ({ x with agree := x.agree + 1 }, none) :=
  (if_neg h).trans (if_neg (Nat.not_le.mpr hk))
theorem debounce_edge (h : bit ≠ x.pressed) (hk : k ≤ x.agree + 1) :
    x.debounce k bit = ({ x with pressed := bit, agree := 0 }, some bit) := (if_neg h).trans (if_pos hk)

theorem countEdge_fires (h : n ≤ x.presses + 1) : x.countEdge n window = ({ x with presses := 0, window := none }, true) := if_pos h

theorem countEdge_counts (h : x.presses + 1 < n) : x.countEdge n window =
    ({ x with presses := x.presses + 1, window := if x.presses = 0 then some window else x.window }, false) := by
  unfold Button.countEdge
  rw [if_neg (Nat.not_le.mpr h)]
  by_cases h0 : x.presses = 0 <;> simp [h0]

end

theorem qualifies_iff (e : ButtonEntry) (bit : Bool) : e.qualifies bit = true ↔
    e.action ≠ .none ∧ (e.edge = .press ∧ bit = true ∨ e.edge = .lift ∧ bit = false ∨ e.edge = .both) := by
  unfold ButtonEntry.qualifies
  cases e.edge <;> simp

section
variable {c : ClaimantSettings} {byte : Byte} {x : Hlr} {b : Nat} {k k' : Button} {e : ButtonEntry}
  (hk : x.buttons[b]? = some k) (he : c.buttons[b]? = some e)
include hk

theorem takeButton_no_edge (h : k.debounce c.debounce (byte.getLsbD b) = (k', none)) :
    Hlr.takeButton c byte x b = { x with buttons := x.buttons.set b k' } := by
  simp [Hlr.takeButton, List.getD_eq_getElem?_getD, hk, h]

include he

theorem takeButton_idle_edge {bit : Bool} (h : k.debounce c.debounce (byte.getLsbD b) = (k', some bit)) (hq : e.qualifies bit = false) :
    Hlr.takeButton c byte x b = { x with buttons := x.buttons.set b k' } := by
  simp [Hlr.takeButton, List.getD_eq_getElem?_getD, hk, he, h, hq]

theorem takeButton_edge {bit : Bool} (h : k.debounce c.debounce (byte.getLsbD b) = (k', some bit)) (hq : e.qualifies bit = true) :
    Hlr.takeButton c byte x b = { x with
      buttons := x.buttons.set b (k'.countEdge e.countInUse c.pressWindow).1
      fired := if (k'.countEdge e.countInUse c.pressWindow).2
        then x.fired ++ [⟨e.action, e.qualifierOf bit, x.link == .active⟩] else x.fired } := by
  simp [Hlr.takeButton, List.getD_eq_getElem?_getD, hk, he, h, hq]

end

/-- Settles O33. -/
theorem buttonRule : Obligations.ButtonRule := by
  intro c byte x b k e hk he
  refine ⟨fun h => takeButton_no_edge hk (debounce_agrees h), fun h hw => takeButton_no_edge hk (debounce_waits h hw),
    fun h hw hq => ?_, fun h hw hq hn => ?_, fun h hw hq hn => ?_⟩
  · exact takeButton_idle_edge hk he (debounce_edge h hw) (by rw [← Bool.not_eq_true, qualifies_iff]; exact hq)
  · rw [takeButton_edge hk he (debounce_edge h hw) ((qualifies_iff ..).mpr hq),
      countEdge_fires (x := { k with pressed := byte.getLsbD b, agree := 0 }) (n := e.countInUse) hn]
    rfl
  · rw [takeButton_edge hk he (debounce_edge h hw) ((qualifies_iff ..).mpr hq),
      countEdge_counts (x := { k with pressed := byte.getLsbD b, agree := 0 }) (n := e.countInUse) hn]
    rfl

/-! ## The end of a rate window (R99, R103, R184) -/

/-- The status byte's fields stand apart, so they can as well be added (R184). -/
theorem statusBits (c : ClaimState) (paused coast stop : Bool) (k : LinkState) :
    BitVec.ofNat 8 (claimStateCode c) ||| (bitByte paused <<< 2) ||| (bitByte coast <<< 3) ||| (bitByte stop <<< 4) |||
      (BitVec.ofNat 8 (linkStateCode k) <<< 5) =
    BitVec.ofNat 8 (claimStateCode c + 4 * flagCode paused + 8 * flagCode coast + 16 * flagCode stop + 32 * linkStateCode k) := by
  cases c <;> cases k <;> revert paused coast stop <;> decide

theorem judgeWindow_eq (st : LinkState) (n : Nat) : judgeWindow st n =
    if st = .suspect ∨ st = .active then (if 4 ≤ n ∧ n ≤ 25 then .active else .suspect) else st := by
  cases st <;> simp [judgeWindow]

/-- The receiver when its window has been judged (R99). -/
def Hlr.judged (x : Hlr) : Hlr := { x with link := judgeWindow x.link x.rateCount, rateCount := 0, rateDue := false }

/-- The state when a window has been judged and the change of link, if any, reported (R99). -/
def windowJudged (s : State) (l : Link) : State :=
  raiseAll (s.withLink l (s.hlr.get l).judged)
    (if judgeWindow (s.hlr.get l).link (s.hlr.get l).rateCount = (s.hlr.get l).link then []
      else [.linkState l (judgeWindow (s.hlr.get l).link (s.hlr.get l).rateCount)])

theorem endWindow_eq (s : State) (l : Link) : endWindow s l =
    (windowJudged s l).withLink l { (s.hlr.get l).judged with tx := statusMessage (windowJudged s l) l } := by
  have hj : windowJudged s l =
      if judgeWindow (s.hlr.get l).link (s.hlr.get l).rateCount = (s.hlr.get l).link then s.withLink l (s.hlr.get l).judged
      else raise (s.withLink l (s.hlr.get l).judged) (.linkState l (judgeWindow (s.hlr.get l).link (s.hlr.get l).rateCount)) := by
    unfold windowJudged
    split <;> rfl
  have hget : (windowJudged s l).hlr.get l = (s.hlr.get l).judged := by
    rw [windowJudged, raiseAll_hlr, State.withLink_hlr, Pair.get_set]
  rw [← hget, hj]
  rfl

theorem statusMessage_windowJudged (s : State) (l : Link) : statusMessage (windowJudged s l) l =
    let code : Byte := .ofNat 8 (claimStateCode (claimState s.helm (claimantOf l)) + 4 * flagCode s.helm.paused +
      8 * flagCode s.helm.coast + 16 * flagCode s.sce.stopReached.isSome +
      32 * linkStateCode (judgeWindow (s.hlr.get l).link (s.hlr.get l).rateCount))
    [0xA6, code, 0 - (0xA6 + code)] := by
  have hbyte : statusByte (windowJudged s l) l = .ofNat 8 (claimStateCode (claimState s.helm (claimantOf l)) + 4 * flagCode s.helm.paused +
      8 * flagCode s.helm.coast + 16 * flagCode s.sce.stopReached.isSome +
      32 * linkStateCode (judgeWindow (s.hlr.get l).link (s.hlr.get l).rateCount)) := by
    rw [statusByte, statusBits, windowJudged, raiseAll_helm, raiseAll_sce, raiseAll_hlr, State.withLink_hlr, Pair.get_set]
    rfl
  rw [statusMessage, hbyte]
  simp [checkByte]

/-! ## The loss of a link (R100, R101) -/

/-- A receiver as its link's loss leaves it (R101). -/
structure LostReceiver (x : Hlr) : Prop where
  link : x.link = .lost
  seq : x.seq = none
  silence : x.silence = 0
  silenceTimer : x.silenceTimer = none
  buttons : ∀ b ∈ x.buttons, b = resetButton

theorem lostReceiver_enterLost (x : Hlr) : LostReceiver x.enterLost :=
  ⟨rfl, rfl, rfl, rfl, fun b hb => by
    obtain ⟨_, -, rfl⟩ := List.mem_map.mp hb
    rfl⟩

theorem LostReceiver.map {x : Hlr} (h : LostReceiver x) {f : Button → Button} (hf : f resetButton = resetButton) :
    LostReceiver { x with buttons := x.buttons.map f } :=
  ⟨h.link, h.seq, h.silence, h.silenceTimer, fun b hb => by
    obtain ⟨c, hc, rfl⟩ := List.mem_map.mp hb
    rw [h.buttons c hc, hf]⟩

theorem lostReceiver_putIntoUse {l : Link} {s : State} (h : LostReceiver (s.hlr.get l)) (u : ClaimantUpdate) :
    LostReceiver ((putIntoUse l s u).hlr.get l) := by
  cases u with
  | button =>
    show LostReceiver ((s.hlr.set l (s.hlr.get l).clearPresses).get l)
    rw [Pair.get_set]
    exact h.map rfl
  | debounce =>
    show LostReceiver ((s.hlr.set l (s.hlr.get l).clearAgree).get l)
    rw [Pair.get_set]
    exact h.map rfl
  | silenceLimit n =>
    have hs : ¬((settingUsed l s (.silenceLimit n)).hlr.get l).silent n = true := by
      have hl : ((settingUsed l s (.silenceLimit n)).hlr.get l).link = .lost := h.link
      simp [Hlr.silent, hl]
    have hp : putIntoUse l s (.silenceLimit n) = settingUsed l s (.silenceLimit n) := if_neg hs
    rw [hp]
    exact h
  | _ => exact h

theorem lostReceiver_foldl {l : Link} (us : List ClaimantUpdate) {s : State} (h : LostReceiver (s.hlr.get l)) :
    LostReceiver ((us.foldl (putIntoUse l) s).hlr.get l) := by
  induction us generalizing s with
  | nil => exact h
  | cons u rest ih => exact ih (lostReceiver_putIntoUse h u)

theorem lostReceiver_putStaged {l : Link} {s : State} (h : LostReceiver (s.hlr.get l)) : LostReceiver ((putStaged s l).hlr.get l) :=
  lostReceiver_foldl _ h

/-- Settings that lose no link leave the others' collections, and nothing is raised (R121). -/
theorem putStaged_quiet {s : State} {l : Link} (h : losesLink (s.hlr.get l) (s.helm.staged.get l) = false) :
    (putStaged s l).sru = s.sru ∧ (putStaged s l).helm = { s.helm with
      inUse := (putStaged s l).helm.inUse, staged := (putStaged s l).helm.staged } := by
  have hu := used_putStaged s l
  have hl : losesLink ((stagingEmptied s l).hlr.get l) (s.helm.staged.get l) = false := h
  have hhelm := hu.helm
  have hsru := hu.sru
  rw [hl] at hhelm hsru
  exact ⟨hsru, by rw [hhelm]; rfl⟩

theorem receiverLost_get (s : State) (l : Link) : (receiverLost s l).hlr.get l = (s.hlr.get l).enterLost := Pair.get_set ..

theorem receiverLost_helm (s : State) (l : Link) : (receiverLost s l).helm = { s.helm with lastDeflection := s.helm.lastDeflection.set l 0 } := rfl

theorem losesLink_receiverLost (s : State) (l : Link) (us : List ClaimantUpdate) : losesLink ((receiverLost s l).hlr.get l) us = false := by
  rw [receiverLost_get]
  exact losesLink_lost rfl us

theorem lostReceiver_letGo {s : State} {l : Link} (h : LostReceiver (s.hlr.get l)) (k : HelmCause) :
    LostReceiver ((letGo s (claimantOf l) k).hlr.get l) := by
  unfold letGo
  split
  · rw [releaseHolder_hlr, freed_claimantOf]
    exact lostReceiver_putStaged h
  · exact h
  · rw [withdraw_claimantOf]
    exact lostReceiver_putStaged h

/-- The lost link's claimant, holding, hands over (R101, R111, R113). -/
theorem lost_holder {s v : State} {l : Link} (hv : v.helm = { s.helm with coast := v.helm.coast }) (hset : v.sru = s.sru) (hf : v.ftu = s.ftu)
    (hh : s.helm.holder = some (claimantOf l)) :
    handedOver s (linkLost v l) ∧ stagedTaken s (claimantOf l) (linkLost v l) ∧
      (linkLost v l).helm.lastDeflection = s.helm.lastDeflection.set l 0 ∧
      (linkLost v l).sru = acceptAll s.sru s [.linkState l .lost, .helmChange (some (claimantOf l)) (successor s) .linkLost] := by
  have hr := receiverLost_helm v l
  have hq := putStaged_quiet (s := holderless (receiverLost v l)) (l := l) (losesLink_receiverLost v l _)
  rw [← freed_claimantOf] at hq
  obtain ⟨hsru, hhelm⟩ := hq
  have hfrees : Frees (receiverLost v l) (freed (receiverLost v l) (claimantOf l)) := ⟨by rw [hhelm]; rfl, by rw [hsru]; rfl⟩
  obtain ⟨hover, hsru'⟩ := handedOver_releaseHolder hfrees .linkLost
  have hsucc : successor (receiverLost v l) = successor s := successor_congr (by rw [hr, hv]) (by rw [hr, hv]) (by rw [← hset]; rfl)
  have hlet : linkLost v l = releaseHolder (receiverLost v l) (claimantOf l) .linkLost := letGo_holder (by rw [hr, hv]; exact hh) _
  rw [hlet]
  refine ⟨?_, stagedTaken_of (v := holderless (receiverLost v l)) ?_ ?_ ?_ ?_, ?_, ?_⟩
  · rw [handedOver, hsucc, hr, hv] at hover
    exact hover
  · rw [holderless, State.withHelm_helm, hr, hv]
  · rw [holderless, State.withHelm_helm, hr, hv]
  · rw [releaseHolder_staged, freed_claimantOf]
  · rw [releaseHolder_inUse, freed_claimantOf]
  · rw [releaseHolder_eq, raise_helm, State.withHelm_helm, hhelm, holderless, Helm.passTo, State.withHelm_helm, hr, hv]
  · rw [hsru', hsru, hsucc]
    show Sru.accept (Sru.accept v.sru _ v.ftu.frame v.ftu.tick) _ v.ftu.frame v.ftu.tick = _
    rw [hset, hf]
    rfl

/-- The lost link's claimant, waiting, withdraws (R101, R113). -/
theorem lost_waiting {s v : State} {l : Link} (hv : v.helm = s.helm) (hset : v.sru = s.sru) (hf : v.ftu = s.ftu)
    (hh : claimState s.helm (claimantOf l) = .pending ∨ claimState s.helm (claimantOf l) = .suspended) :
    withdrawn s (claimantOf l) (linkLost v l) ∧ stagedTaken s (claimantOf l) (linkLost v l) ∧
      (linkLost v l).helm.lastDeflection = s.helm.lastDeflection.set l 0 ∧ (linkLost v l).sru = acceptAll s.sru s [.linkState l .lost] := by
  have hr := receiverLost_helm v l
  have hlet : linkLost v l = withdraw (receiverLost v l) (claimantOf l) := letGo_waiting (by rw [hr, hv]; exact hh) _
  have hw := withdrawn_withdraw (receiverLost v l) (claimantOf l)
  obtain ⟨hsru, hhelm⟩ := putStaged_quiet (s := (receiverLost v l).withHelm ((receiverLost v l).helm.leave (claimantOf l))) (l := l)
    (losesLink_receiverLost v l _)
  rw [← withdraw_claimantOf] at hsru hhelm
  rw [hlet]
  refine ⟨?_, stagedTaken_of (v := (receiverLost v l).withHelm ((receiverLost v l).helm.leave (claimantOf l))) ?_ ?_ ?_ ?_, ?_, ?_⟩
  · rw [withdrawn, hr, hv] at hw
    exact hw
  · rw [State.withHelm_helm, hr, hv]; rfl
  · rw [State.withHelm_helm, hr, hv]; rfl
  · rw [withdraw_claimantOf]
  · rw [withdraw_claimantOf]
  · rw [hhelm, State.withHelm_helm, hr, hv]
    rfl
  · rw [hsru]
    show Sru.accept v.sru _ v.ftu.frame v.ftu.tick = _
    rw [hset, hf]
    rfl

/-- The lost link's claimant, neither holding nor waiting, has nothing to let go (R101, R113). -/
theorem lost_idle {v : State} {l : Link} (hh : claimState v.helm (claimantOf l) = .idle) : linkLost v l = receiverLost v l :=
  letGo_idle (s := receiverLost v l) hh _

/-- A claimant holds, waits, or has no part in the helm (R105). -/
theorem claimState_cases (x : Helm) (c : Claimant) :
    x.holder = some c ∨ (claimState x c = .pending ∨ claimState x c = .suspended) ∨ claimState x c = .idle := by
  cases h : claimState x c with
  | holding => exact .inl (claimState_holding.mp h)
  | pending => exact .inr (.inl (.inl rfl))
  | suspended => exact .inr (.inl (.inr rfl))
  | idle => exact .inr (.inr rfl)

/-! ## An expiry of the silence timer (R100, R102) -/

theorem writes_silenceCounted (s : State) (l : Link) : Writes [.hlr, .helm] s (silenceCounted s l) :=
  .ite (fun _ => ((Writes.refl _ s).withLink _ _ (by decide)).withHelm _ (by decide)) fun _ => (Writes.refl _ s).withLink _ _ (by decide)

theorem silenceCounted_sru (s : State) (l : Link) : (silenceCounted s l).sru = s.sru := by
  unfold silenceCounted
  dsimp only
  split <;> rfl

theorem silenceCounted_hlr (s : State) (l : Link) : (silenceCounted s l).hlr =
    s.hlr.set l { s.hlr.get l with silence := min 80 ((s.hlr.get l).silence + 1), silenceDue := false } := by
  unfold silenceCounted
  dsimp only
  split <;> rfl

theorem silenceCounted_coast (s : State) (l : Link) : (silenceCounted s l).helm = { s.helm with
    coast := s.helm.coast || decide (s.helm.holder = some (claimantOf l) ∧
      max 1 ((s.helm.inUse.get l).silenceLimit / 2) ≤ min 80 ((s.hlr.get l).silence + 1)) } := by
  unfold silenceCounted coastThreshold
  dsimp only
  split
  · next h => rw [decide_eq_true h, Bool.or_true, State.withHelm_helm]
  · next h => rw [decide_eq_false h, Bool.or_false]; rfl

theorem silenceCounted_not_holder {s : State} {l : Link} (h : s.helm.holder ≠ some (claimantOf l)) : (silenceCounted s l).helm = s.helm := by
  rw [silenceCounted_coast]
  simp [h]

theorem silenceCounted_silent (s : State) (l : Link) (limit : Nat) : ((silenceCounted s l).hlr.get l).silent limit = true ↔
    ((s.hlr.get l).link = .suspect ∨ (s.hlr.get l).link = .active) ∧ limit ≠ 0 ∧ limit ≤ min 80 ((s.hlr.get l).silence + 1) := by
  rw [silenceCounted_hlr, Pair.get_set]
  simp only [Hlr.silent, Bool.and_eq_true, Bool.or_eq_true, beq_iff_eq, bne_iff_ne, decide_eq_true_eq, and_assoc]

/-- Settles O35. -/
theorem receiverTimers : Obligations.ReceiverTimers := by
  refine ⟨fun s l b k hk => ⟨fun hw => ?_, fun hw => ?_⟩, fun s l hd => ?_, fun s l hd => ?_⟩
  · have hk' : (s.hlr.get l).buttons.getD b.val resetButton = k := by simp [List.getD_eq_getElem?_getD, hk]
    obtain ⟨he, hc⟩ := (Acts.pressWindowExpiry hk' hw).changes (writes_withLink s l _) (.inr rfl)
    exact ⟨_, he, hc, arbitrate_hlr _⟩
  · refine if_neg ?_
    simpa [List.getD_eq_getElem?_getD, hk] using hw
  · have ha := Acts.rateWindowEnd hd
    have hw := acts_writes ha
    rw [endWindow_eq, statusMessage_windowJudged] at ha hw
    dsimp only
    rw [← judgeWindow_eq]
    refine ⟨_, exec_of_acts ha, hw.onlyRaises_arbitrate ?_, ?_⟩
    · rw [State.withLink_sru, windowJudged, raiseAll_sru, acceptAll_congr (u := State.withLink _ _ _) (raiseAll_ftu ..)]
      rfl
    · rw [finish, if_neg (by simp), arbitrate_hlr, State.withLink_hlr, windowJudged, raiseAll_hlr, State.withLink_hlr, Pair.set_set]
      rfl
  · have ha := Acts.silenceTimerExpiry hd
    have hw : Writes [.hlr, .helm] s (silenceExpires s l) := acts_writes ha
    have hsil := silenceCounted_silent s l (s.helm.inUse.get l).silenceLimit
    have hsru := silenceCounted_sru s l
    have hftu : (silenceCounted s l).ftu = s.ftu := (writes_silenceCounted s l).ftu (by decide)
    intro x q limit lost
    have hlost (h : lost) : silenceExpires s l = linkLost (silenceCounted s l) l := by
      rw [silenceExpires_eq]
      exact if_pos (hsil.mpr h)
    have hnh (hi : s.helm.holder ≠ some (claimantOf l)) := silenceCounted_not_holder (s := s) (l := l) hi
    have raises {es : List Event} (h : lost) (he : (linkLost (silenceCounted s l) l).sru = acceptAll s.sru s es) :
        onlyRaises [.hlr, .helm] es s (arbitrate (silenceExpires s l)) := by
      refine hw.onlyRaises_arbitrate ?_
      rw [acceptAll_congr (hw.ftu (by decide)), ← he, hlost h]
    refine ⟨_, exec_of_acts ha, fun hn => ?_, fun h => ?_, fun h hi => ?_, fun h hh => ?_, fun h hh => ?_⟩ <;>
      rw [finish, if_neg (by simp)]
    · have heq : silenceExpires s l = silenceCounted s l := by
        rw [silenceExpires_eq]
        exact if_neg (hsil.not.mpr hn)
      refine ⟨hw.onlyChanges_arbitrate (.inr (by rw [heq, hsru])), ?_, ?_⟩
      · rw [arbitrate_hlr, heq, silenceCounted_hlr]
      · rw [arbitrate_helm, heq, silenceCounted_coast]
    · have hrec : LostReceiver ((linkLost (silenceCounted s l) l).hlr.get l) := lostReceiver_letGo (by
        rw [receiverLost_get]
        exact lostReceiver_enterLost _) _
      rw [arbitrate_hlr, arbitrate_helm, hlost h]
      refine ⟨hrec.link, hrec.seq, hrec.silence, hrec.silenceTimer, ?_, hrec.buttons⟩
      rcases claimState_cases s.helm (claimantOf l) with hh | hh | hh
      · exact (lost_holder (silenceCounted_helm s l) hsru hftu hh).2.2.1
      · have hne : s.helm.holder ≠ some (claimantOf l) := fun e => by
          rw [claimState_holding.mpr e] at hh
          rcases hh with hh | hh <;> cases hh
        exact (lost_waiting (hnh hne) hsru hftu hh).2.2.1
      · rw [lost_idle (by rw [hnh (not_holding_of_waits (.inl hh))]; exact hh), receiverLost_helm, silenceCounted_helm]
    · have hv := hnh (not_holding_of_waits (.inl hi))
      have hid : linkLost (silenceCounted s l) l = receiverLost (silenceCounted s l) l := lost_idle (by rw [hv]; exact hi)
      refine ⟨raises h ?_, ?_⟩
      · rw [hid]
        show Sru.accept (silenceCounted s l).sru _ (silenceCounted s l).ftu.frame (silenceCounted s l).ftu.tick = _
        rw [hsru, hftu]
        rfl
      · rw [arbitrate_helm, hlost h, hid, receiverLost_helm, hv]
    · obtain ⟨h1, h2, -, h4⟩ := lost_holder (silenceCounted_helm s l) hsru hftu hh
      refine ⟨?_, ?_, raises h h4⟩
      · rw [handedOver, arbitrate_helm, hlost h]
        exact h1
      · rw [stagedTaken, arbitrate_helm, hlost h]
        exact h2
    · have hne : s.helm.holder ≠ some (claimantOf l) := fun e => by
        rw [claimState_holding.mpr e] at hh
        rcases hh with hh | hh <;> cases hh
      obtain ⟨h1, h2, -, h4⟩ := lost_waiting (hnh hne) hsru hftu hh
      refine ⟨?_, ?_, raises h h4⟩
      · rw [withdrawn, arbitrate_helm, hlost h]
        exact h1
      · rw [stagedTaken, arbitrate_helm, hlost h]
        exact h2

end Sys2Proof.Machine

/-! The hand link's parser, and a valid report (R87 to R92, R97, R99, R102, R108). -/

namespace Sys2Proof.Machine

open Sys2Proof.Config

/-! ## A byte at the receiver (R88, R89) -/

section
variable {s : State} {l : Link} {p : List (Nat × Byte)} {b : RxByte}

theorem handByte_hunt (h : (s.hlr.get l).parser = []) (b : RxByte) :
    handByte l s b = s.withLink l { s.hlr.get l with parser := huntByte b } := by
  simp [handByte, h]

theorem handByte_late (h : (s.hlr.get l).parser = p) (hp : p ≠ []) (hb : lastTime p + 2000 < b.time) :
    handByte l s b = s.withLink l ((s.hlr.get l).checkError (huntByte b)) := by
  obtain ⟨a, q, rfl⟩ := List.exists_cons_of_ne_nil hp
  simp [handByte, h, handGap, hb]

theorem handByte_framing (h : (s.hlr.get l).parser = p) (hp : p ≠ []) (hb : b.time ≤ lastTime p + 2000) (hf : b.framing = true) :
    handByte l s b = s.withLink l ((s.hlr.get l).checkError []) := by
  obtain ⟨a, q, rfl⟩ := List.exists_cons_of_ne_nil hp
  simp [handByte, h, handGap, hf, Nat.not_lt.mpr hb]

theorem handByte_stores (h : (s.hlr.get l).parser = p) (hp : p ≠ []) (hl : p.length < 4) (hb : b.time ≤ lastTime p + 2000)
    (hf : b.framing = false) : handByte l s b = s.withLink l { s.hlr.get l with parser := p ++ [(b.time, b.data)] } := by
  obtain ⟨a, q, rfl⟩ := List.exists_cons_of_ne_nil hp
  match q, hl with
  | [], _ => simp [handByte, h, handGap, hf, Nat.not_lt.mpr hb]
  | [_], _ => simp [handByte, h, handGap, hf, Nat.not_lt.mpr hb]
  | [_, _], _ => simp [handByte, h, handGap, hf, Nat.not_lt.mpr hb]

theorem handByte_ends {b0 b1 b2 b3 : Nat × Byte} (h : (s.hlr.get l).parser = [b0, b1, b2, b3]) (hb : b.time ≤ b3.1 + 2000)
    (hf : b.framing = false) : handByte l s b =
      if b0.2 + b1.2 + b2.2 + b3.2 + b.data = 0 then takeReport (s.withLink l { s.hlr.get l with parser := [] }) l b1.2 b2.2 b3.2
      else s.withLink l ((s.hlr.get l).checkError (rescan [b1, b2, b3, (b.time, b.data)])) := by
  have ht : lastTime [b0, b1, b2, b3] = b3.1 := rfl
  have hsum : byteSum [b0.2, b1.2, b2.2, b3.2, b.data] = b0.2 + b1.2 + b2.2 + b3.2 + b.data := by simp [byteSum]
  simp [handByte, h, ht, handGap, hf, Nat.not_lt.mpr hb, hsum]

end

/-- Bytes at a receiver, once initialisation has ended (R86). -/
theorem handBytes_cons {s : State} (h : s.rst.phase = .running) (l : Link) (b : RxByte) (rest : List RxByte) :
    handBytes l (b :: rest) s = handBytes l rest (handByte l (s.withFtu (s.ftu.reach b.time)) b) := by
  have h' : (handByte l (s.withFtu (s.ftu.reach b.time)) b).rst.phase = .running := by
    rw [(writes_handByte l _ b).rst (by decide)]
    exact h
  simp only [handBytes, h, h', if_true, List.foldl_cons]

theorem handBytes_one {s : State} (h : s.rst.phase = .running) (l : Link) (b : RxByte) :
    handBytes l [b] s = handByte l (s.withFtu (s.ftu.reach b.time)) b := by
  simp [handBytes, h]

/-- A byte that only changes the receiver's parser and counters (R88, R89). -/
theorem byte_changes {c : Instr} {s : State} {l : Link} {b : RxByte} {x : Hlr} (ha : Acts s c false (handBytes l [b] s))
    (hr : s.rst.phase = .running) (hx : handByte l (s.withFtu (s.ftu.reach b.time)) b = (s.withFtu (s.ftu.reach b.time)).withLink l x) :
    ∃ t, exec c s = .next t ∧ onlyChanges [.hlr, .ftu] s t ∧ t.ftu = { s.ftu with micros := max s.ftu.micros b.time } ∧
      t.hlr = s.hlr.set l x := by
  rw [handBytes_one hr, hx] at ha
  obtain ⟨he, hc⟩ := ha.changes (bs := [.hlr, .ftu]) (((Writes.refl _ s).withFtu _ (by decide)).withLink _ _ (by decide)) (.inr rfl)
  exact ⟨_, he, hc, by rw [arbitrate_ftu]; rfl, by rw [arbitrate_hlr]; rfl⟩

/-- Settles O34. -/
theorem brokenReports : Obligations.BrokenReports := by
  refine ⟨fun s l p late data framing hr hp hne hlate => ?_, fun s l p time data hr hp hne ht => ?_,
    fun s l b0 b1 b2 b3 time k hr hp ht hsum => ?_, fun s l time data framing hr hp hd => ?_⟩
  · exact byte_changes (.byteGap l _) hr (handByte_late (s := s.withFtu _) (b := ⟨late, data, framing⟩) hp hne hlate)
  · exact byte_changes (.framingError l _) hr (handByte_framing (s := s.withFtu _) (b := ⟨time, data, true⟩) hp hne ht rfl)
  · have hb := handByte_ends (s := s.withFtu (s.ftu.reach time)) (l := l) (b := ⟨time, k, false⟩) hp ht rfl
    rw [if_neg hsum] at hb
    obtain ⟨t, he, hc, -, hh⟩ := byte_changes (.handReport l _) hr hb
    exact ⟨t, he, hc, hh⟩
  · have hb := handByte_hunt (s := s.withFtu (s.ftu.reach time)) (l := l) hp ⟨time, data, framing⟩
    have hnone : huntByte ⟨time, data, framing⟩ = [] := if_neg (by
      rintro ⟨h1, h2⟩
      rcases hd with hd | hd
      · exact hd h1
      · exact absurd hd (by simpa using h2))
    have hsame : (s.withFtu (s.ftu.reach time)).withLink l { s.hlr.get l with parser := [] } = s.withFtu (s.ftu.reach time) := by
      rw [← hp, State.withLink, State.withFtu_hlr, Pair.set_get]
      rfl
    have ha := Acts.framingError (s := s) l [⟨time, data, framing⟩]
    rw [handBytes_one hr, hb, hnone] at ha
    rw [show (s.withFtu (s.ftu.reach time)).withLink l { (s.withFtu (s.ftu.reach time)).hlr.get l with parser := [] } =
      s.withFtu (s.ftu.reach time) from hsame] at ha
    obtain ⟨he, hc⟩ := ha.changes (writes_withFtu s _) (.inr rfl)
    exact ⟨_, he, hc⟩

/-! ## The five bytes of a report (R87, R88) -/

/-- The receiver holds these bytes of a report, the last of them come at this time. -/
def receiving (s : State) (l : Link) (time : Nat) (stored : List (Nat × Byte)) : State :=
  (s.withFtu (s.ftu.reach time)).withLink l { s.hlr.get l with parser := stored }

theorem receiving_get (s : State) (l : Link) (time : Nat) (p : List (Nat × Byte)) :
    (receiving s l time p).hlr.get l = { s.hlr.get l with parser := p } := Pair.get_set ..

theorem receiving_next {s : State} {l : Link} {t t' : Nat} (h : t ≤ t') (p q : List (Nat × Byte)) :
    ((receiving s l t p).withFtu ((receiving s l t p).ftu.reach t')).withLink l { (receiving s l t p).hlr.get l with parser := q } =
      receiving s l t' q := by
  have hf : (s.ftu.reach t).reach t' = s.ftu.reach t' := by
    simp only [Ftu.reach]
    congr 1
    omega
  rw [receiving_get]
  show ((s.withFtu ((s.ftu.reach t).reach t')).withHlr ((s.hlr.set l _).set l _)) = _
  rw [hf, Pair.set_set]
  rfl

theorem handBytes_stores {s : State} {l : Link} {t : Nat} {p : List (Nat × Byte)} (hr : s.rst.phase = .running) (hp : p ≠ [])
    (hlen : p.length < 4) (hlast : lastTime p = t) {b : RxByte} (hb : b.time ≤ t + 2000) (ht : t ≤ b.time) (hf : b.framing = false)
    (rest : List RxByte) :
    handBytes l (b :: rest) (receiving s l t p) = handBytes l rest (receiving s l b.time (p ++ [(b.time, b.data)])) := by
  rw [handBytes_cons (s := receiving s l t p) hr, handByte_stores (s := (receiving s l t p).withFtu ((receiving s l t p).ftu.reach b.time)) (p := p)
    (congrArg Hlr.parser (receiving_get s l t p)) hp hlen (by rw [hlast]; exact hb) hf]
  exact congrArg (handBytes l rest) (receiving_next ht p _)

theorem receiving_none {s : State} {l : Link} (h : (s.hlr.get l).parser = []) (t : Nat) :
    receiving s l t [] = s.withFtu (s.ftu.reach t) := by
  rw [receiving, ← h, State.withLink, State.withFtu_hlr, Pair.set_get]
  rfl

theorem handBytes_ends {s : State} {l : Link} {t : Nat} {b0 b1 b2 b3 : Nat × Byte} {b : RxByte} (hr : s.rst.phase = .running)
    (hp : (s.hlr.get l).parser = []) (hlast : b3.1 = t) (hb : b.time ≤ t + 2000) (ht : t ≤ b.time) (hf : b.framing = false)
    (hsum : b0.2 + b1.2 + b2.2 + b3.2 + b.data = 0) :
    handBytes l [b] (receiving s l t [b0, b1, b2, b3]) = takeReport (s.withFtu (s.ftu.reach b.time)) l b1.2 b2.2 b3.2 := by
  rw [handBytes_one (s := receiving s l t [b0, b1, b2, b3]) hr, handByte_ends
    (s := (receiving s l t [b0, b1, b2, b3]).withFtu ((receiving s l t [b0, b1, b2, b3]).ftu.reach b.time))
    (congrArg Hlr.parser (receiving_get s l t _)) (by rw [hlast]; exact hb) hf, if_pos hsum]
  exact congrArg (fun u => takeReport u l b1.2 b2.2 b3.2) ((receiving_next ht _ _).trans (receiving_none hp _))

/-- Five bytes with no gap, no framing error and sum 0 are a valid report (R87, R88). -/
theorem handBytes_report {s : State} {l : Link} {t0 t1 t2 t3 t4 : Nat} {n d b k : Byte} (hr : s.rst.phase = .running)
    (hp : (s.hlr.get l).parser = []) (h01 : t0 ≤ t1) (g1 : t1 ≤ t0 + 2000) (h12 : t1 ≤ t2) (g2 : t2 ≤ t1 + 2000) (h23 : t2 ≤ t3)
    (g3 : t3 ≤ t2 + 2000) (h34 : t3 ≤ t4) (g4 : t4 ≤ t3 + 2000) (hsum : 0x5A + n + d + b + k = 0) :
    handBytes l [⟨t0, 0x5A, false⟩, ⟨t1, n, false⟩, ⟨t2, d, false⟩, ⟨t3, b, false⟩, ⟨t4, k, false⟩] s =
      takeReport (s.withFtu (s.ftu.reach t4)) l n d b := by
  rw [handBytes_cons hr, handByte_hunt (s := s.withFtu (s.ftu.reach t0)) hp]
  show handBytes l _ (receiving s l t0 [(t0, 0x5A)]) = _
  rw [handBytes_stores (t := t0) hr (by simp) (by simp) rfl g1 h01 rfl, handBytes_stores (t := t1) hr (by simp) (by simp) rfl g2 h12 rfl,
    handBytes_stores (t := t2) hr (by simp) (by simp) rfl g3 h23 rfl]
  exact handBytes_ends (b0 := (t0, 0x5A)) (b1 := (t1, n)) (b2 := (t2, d)) (b3 := (t3, b)) (b := ⟨t4, k, false⟩) hr hp rfl g4 h34 rfl hsum

/-! ## A valid report (R91) -/

/-- The receiver when a report has reached it, before HELM is handed its deflection (R91). -/
def Hlr.arrived (x : Hlr) (d : Int) : Hlr :=
  { x with
    link := if x.link = .absent ∨ x.link = .lost then .suspect else x.link
    silence := 0, silenceTimer := some 50, silenceDue := false, rateCount := min 255 (x.rateCount + 1), deflection := d }

/-- The state when a report has reached the receiver: the link found, the silence ended, coast cleared and the report counted (R91). -/
def reportArrived (s : State) (l : Link) (d : Int) : State :=
  ((raiseAll s (if (s.hlr.get l).link = .absent ∨ (s.hlr.get l).link = .lost then [.linkState l .suspect] else [])).withLink l
    ((s.hlr.get l).arrived d)).withHelm
      { s.helm with coast := if s.helm.holder = some (claimantOf l) then false else s.helm.coast }

/-- The receiver when the sequence number and the buttons of a report have been taken as well (R90, R93). -/
def reportEnds (u : State) (l : Link) (n b : Byte) : State :=
  u.withLink l (Hlr.takeButtons (u.helm.inUse.get l) b ((u.hlr.get l).takeSequence n))

theorem withLink_get (s : State) (l : Link) (x : Hlr) : (s.withLink l x).hlr.get l = x := Pair.get_set ..

theorem withLink_withLink (s : State) (l : Link) (x y : Hlr) : (s.withLink l x).withLink l y = s.withLink l y :=
  congrArg s.withHlr (Pair.set_set ..)

theorem withHelm_withLink (s : State) (l : Link) (h : Helm) (x : Hlr) : (s.withHelm h).withLink l x = (s.withLink l x).withHelm h := rfl

theorem withLink_self (s : State) (l : Link) : s.withLink l (s.hlr.get l) = s := by
  rw [State.withLink, Pair.set_get]
  rfl

theorem reportFound_eq (s : State) (l : Link) : reportFound s l =
    (raiseAll s (if (s.hlr.get l).link = .absent ∨ (s.hlr.get l).link = .lost then [.linkState l .suspect] else [])).withLink l
      { s.hlr.get l with link := if (s.hlr.get l).link = .absent ∨ (s.hlr.get l).link = .lost then .suspect else (s.hlr.get l).link } := by
  unfold reportFound
  cases hk : (s.hlr.get l).link
  case absent => rfl
  case lost => rfl
  all_goals
    simp only [reduceCtorEq, or_self, if_false, raiseAll, List.foldl_nil]
    rw [← hk]
    exact (withLink_self s l).symm

theorem clearCoast_eq (s : State) (l : Link) : clearCoast s l =
    s.withHelm { s.helm with coast := if s.helm.holder = some (claimantOf l) then false else s.helm.coast } := by
  unfold clearCoast
  split <;> rfl

theorem takeReport_eq (s : State) (l : Link) (n d b : Byte) : takeReport s l n d b =
    reportEnds (handDeflection (reportArrived s l (deflectionOf d)) l (deflectionOf d)) l n b := by
  unfold takeReport reportEnds
  dsimp only
  rw [withLink_get, withLink_withLink]
  simp only [clearCoast_eq, reportFound_eq, withLink_get, withLink_withLink, State.withHelm_hlr, withHelm_withLink, State.withLink_helm,
    raiseAll_helm]
  rfl

end Sys2Proof.Machine

/-! A valid hand report taken in the order of R91, with the claim a deflection may make (R92, R93, R97, R108). -/

namespace Sys2Proof.Machine

open Sys2Proof.Config

/-! ## The buttons of a report (R93, R97) -/

theorem takeButton_rest (c : ClaimantSettings) (byte : Byte) (x : Hlr) (b : Nat) : Hlr.takeButton c byte x b =
    { x with buttons := (Hlr.takeButton c byte x b).buttons, fired := (Hlr.takeButton c byte x b).fired } := by
  unfold Hlr.takeButton
  dsimp only
  split
  · rfl
  · split <;> rfl

/-- The two receivers have the same buttons, link and fired actions. -/
structure SameButtons (x y : Hlr) : Prop where
  buttons : y.buttons = x.buttons
  fired : y.fired = x.fired
  link : y.link = x.link

theorem SameButtons.takeButton {x y : Hlr} (h : SameButtons x y) (c : ClaimantSettings) (byte : Byte) (b : Nat) :
    SameButtons (Hlr.takeButton c byte x b) (Hlr.takeButton c byte y b) := by
  obtain ⟨hb, hf, hl⟩ := h
  unfold Hlr.takeButton
  rw [hb, hf, hl]
  dsimp only
  split
  · exact ⟨rfl, rfl, rfl⟩
  · split <;> exact ⟨rfl, rfl, rfl⟩

theorem SameButtons.takeButtons {x y : Hlr} (h : SameButtons x y) (c : ClaimantSettings) (byte : Byte) :
    SameButtons (Hlr.takeButtons c byte x) (Hlr.takeButtons c byte y) := by
  unfold Hlr.takeButtons
  induction List.range 8 generalizing x y with
  | nil => exact h
  | cons b rest ih => exact ih (h.takeButton c byte b)

theorem takeButtons_rest (c : ClaimantSettings) (byte : Byte) (x : Hlr) : Hlr.takeButtons c byte x =
    { x with buttons := (Hlr.takeButtons c byte x).buttons, fired := (Hlr.takeButtons c byte x).fired } := by
  unfold Hlr.takeButtons
  induction List.range 8 generalizing x with
  | nil => rfl
  | cons b rest ih =>
    rw [List.foldl_cons, ih, takeButton_rest]

/-! ## Settings that come into use while the silence counter is 0 -/

theorem losesLink_of_silence_zero {x : Hlr} (h : x.silence = 0) (us : List ClaimantUpdate) : losesLink x us = false := by
  rw [← Bool.not_eq_true, losesLink_iff]
  rintro ⟨-, n, -, hn, hle⟩
  rw [h] at hle
  exact hn (Nat.le_zero.mp hle)

/-- A receiver with its buttons apart. -/
def SameButForButtons (x y : Hlr) : Prop := y = { x with buttons := y.buttons }

theorem SameButForButtons.trans {x y z : Hlr} (h : SameButForButtons x y) (h' : SameButForButtons y z) : SameButForButtons x z := by
  unfold SameButForButtons at *
  rw [h', h]

theorem putIntoUse_buttons {l : Link} {s : State} (h : (s.hlr.get l).silence = 0) (u : ClaimantUpdate) :
    SameButForButtons (s.hlr.get l) ((putIntoUse l s u).hlr.get l) := by
  cases u with
  | button =>
    show SameButForButtons _ ((s.hlr.set l (s.hlr.get l).clearPresses).get l)
    rw [Pair.get_set]
    rfl
  | debounce =>
    show SameButForButtons _ ((s.hlr.set l (s.hlr.get l).clearAgree).get l)
    rw [Pair.get_set]
    rfl
  | silenceLimit n =>
    have hl := losesLink_of_silence_zero h [.silenceLimit n]
    rw [losesLink_silenceLimit] at hl
    have hp : putIntoUse l s (.silenceLimit n) = settingUsed l s (.silenceLimit n) :=
      if_neg (by rw [State.withHelm_hlr, hl]; simp)
    rw [hp]
    rfl
  | _ => rfl

theorem putStaged_buttons {l : Link} {s : State} (h : (s.hlr.get l).silence = 0) :
    SameButForButtons (s.hlr.get l) ((putStaged s l).hlr.get l) := by
  have fold (us : List ClaimantUpdate) : ∀ u : State, (u.hlr.get l).silence = 0 →
      SameButForButtons (u.hlr.get l) ((us.foldl (putIntoUse l) u).hlr.get l) := by
    induction us with
    | nil => exact fun _ _ => rfl
    | cons a rest ih =>
      intro u hu
      have h1 := putIntoUse_buttons hu a
      exact h1.trans (ih _ (by rw [h1]; exact hu))
  exact fold _ (stagingEmptied s l) h

/-! ## What a deflection does (R92, R108) -/

/-- The state in which HELM has been handed a deflection and has not judged it (R92). -/
def deflected (s : State) (l : Link) (d : Int) : State :=
  s.withHelm { s.helm with lastDeflection := s.helm.lastDeflection.set l d }

section
variable {s : State} {l : Link} {d : Int}

theorem handDeflection_still (h : ¬movesOut s l d) : handDeflection s l d = deflected s l d := if_neg h

theorem handDeflection_moves (h : movesOut s l d) : handDeflection s l d = judgeClaim (deflected s l d) (claimantOf l) := if_pos h

end

/-- What follows the deflection at HELM: no other receiver, and of this one at most the buttons, is touched (R92, R95, R108). -/
structure Deflected (l : Link) (d : Int) (p q : State) : Prop where
  last : q.helm.lastDeflection = p.helm.lastDeflection.set l d
  receiver : SameButForButtons (p.hlr.get l) (q.hlr.get l)
  others : ∀ k, k ≠ l → q.hlr.get k = p.hlr.get k

theorem putStaged_joined_quiet {p : State} {l : Link} (hz : (p.hlr.get l).silence = 0) :
    (putStaged (joined p (claimantOf l)) l).sru = p.sru ∧ (putStaged (joined p (claimantOf l)) l).helm = { p.helm with
      waiting := p.helm.waiting ++ [claimantOf l], inUse := (putStaged (joined p (claimantOf l)) l).helm.inUse
      staged := (putStaged (joined p (claimantOf l)) l).helm.staged } :=
  putStaged_quiet (s := joined p (claimantOf l)) (losesLink_of_silence_zero hz _)

theorem deflected_judgeClaim {p : State} {l : Link} (hz : (p.hlr.get l).silence = 0) (c : Claimant) (hc : c = claimantOf l) :
    (judgeClaim p c).helm.lastDeflection = p.helm.lastDeflection ∧ SameButForButtons (p.hlr.get l) ((judgeClaim p c).hlr.get l) ∧
      ∀ k, k ≠ l → (judgeClaim p c).hlr.get k = p.hlr.get k := by
  subst hc
  unfold judgeClaim
  split
  · exact ⟨rfl, rfl, fun _ _ => rfl⟩
  · split
    · exact ⟨rfl, rfl, fun _ _ => rfl⟩
    · split
      · exact ⟨rfl, rfl, fun _ _ => rfl⟩
      · split
        · exact ⟨rfl, rfl, fun _ _ => rfl⟩
        · rw [putStagedOf_claimantOf]
          refine ⟨?_, putStaged_buttons (s := joined p (claimantOf l)) hz, (used_putStaged (joined p (claimantOf l)) l).others⟩
          exact (congrArg Helm.lastDeflection (putStaged_joined_quiet hz).2 :)

theorem deflected_handDeflection {p : State} {l : Link} (hz : (p.hlr.get l).silence = 0) (d : Int) :
    Deflected l d p (handDeflection p l d) := by
  by_cases h : movesOut p l d
  · rw [handDeflection_moves h]
    obtain ⟨h1, h2, h3⟩ := deflected_judgeClaim (p := deflected p l d) hz (claimantOf l) rfl
    exact ⟨h1, h2, h3⟩
  · rw [handDeflection_still h]
    exact ⟨rfl, rfl, fun _ _ => rfl⟩

end Sys2Proof.Machine

/-! A valid hand report: what it leaves at its receiver and at HELM (R90 to R93, R109). -/

namespace Sys2Proof.Machine

open Sys2Proof.Config

/-! ## The receiver after a report -/

theorem takeSequence_eq (x : Hlr) (n : Byte) :
    x.takeSequence n = { x with seq := some n, seqGaps := (x.takeSequence n).seqGaps } := by
  unfold Hlr.takeSequence
  split <;> rfl

theorem takeSequence_first {x : Hlr} (h : x.seq = none) (n : Byte) : (x.takeSequence n).seqGaps = x.seqGaps := by
  rw [Hlr.takeSequence, h]

theorem takeSequence_next {x : Hlr} {k : Byte} (h : x.seq = some k) (n : Byte) :
    (x.takeSequence n).seqGaps = if n = k + 1 then x.seqGaps else x.seqGaps + 1 := by
  rw [Hlr.takeSequence, h]

theorem takeSequence_gaps_congr {x y : Hlr} (hs : y.seq = x.seq) (hg : y.seqGaps = x.seqGaps) (n : Byte) :
    (y.takeSequence n).seqGaps = (x.takeSequence n).seqGaps := by
  unfold Hlr.takeSequence
  rw [hs]
  split
  · simp only [hg]
  · exact hg

/-- All that a valid report does (R91). -/
def reportTaken (s : State) (l : Link) (d : Int) (n b : Byte) : State := reportEnds (handDeflection (reportArrived s l d) l d) l n b

theorem reportArrived_get (s : State) (l : Link) (d : Int) : (reportArrived s l d).hlr.get l = (s.hlr.get l).arrived d := by
  have h := withLink_get (raiseAll s (if (s.hlr.get l).link = .absent ∨ (s.hlr.get l).link = .lost then [.linkState l .suspect] else [])) l
    ((s.hlr.get l).arrived d)
  exact h

theorem reportArrived_get_ne (s : State) {l k : Link} (d : Int) (h : k ≠ l) : (reportArrived s l d).hlr.get k = s.hlr.get k := by
  have hg := Pair.get_set_ne s.hlr ((s.hlr.get l).arrived d) h
  rw [reportArrived, State.withHelm_hlr, State.withLink_hlr, raiseAll_hlr]
  exact hg

theorem reportArrived_silence (s : State) (l : Link) (d : Int) : ((reportArrived s l d).hlr.get l).silence = 0 := by
  rw [reportArrived_get]
  rfl

theorem reportTaken_receiver (s : State) (l : Link) (d : Int) (n b : Byte) : ∃ bs fs, (reportTaken s l d n b).hlr.get l =
    { s.hlr.get l with
      link := if (s.hlr.get l).link = .absent ∨ (s.hlr.get l).link = .lost then .suspect else (s.hlr.get l).link
      silence := 0, silenceTimer := some 50, silenceDue := false, rateCount := min 255 ((s.hlr.get l).rateCount + 1), deflection := d
      seq := some n, seqGaps := ((s.hlr.get l).takeSequence n).seqGaps, buttons := bs, fired := fs } := by
  have hd := (deflected_handDeflection (reportArrived_silence s l d) d).receiver
  rw [reportArrived_get] at hd
  rw [reportTaken, reportEnds, withLink_get, hd, takeButtons_rest, takeSequence_eq, takeSequence_gaps_congr (x := s.hlr.get l)]
  exacts [⟨_, _, rfl⟩, rfl, rfl]

theorem reportTaken_other (s : State) {l k : Link} (d : Int) (n b : Byte) (h : k ≠ l) :
    (reportTaken s l d n b).hlr.get k = s.hlr.get k := by
  have hd := (deflected_handDeflection (reportArrived_silence s l d) d).others k h
  rw [reportArrived_get_ne s d h] at hd
  rw [← hd]
  exact Pair.get_set_ne _ _ h

theorem reportTaken_last (s : State) (l : Link) (d : Int) (n b : Byte) :
    (reportTaken s l d n b).helm.lastDeflection = s.helm.lastDeflection.set l d :=
  (deflected_handDeflection (reportArrived_silence s l d) d).last

/-- Where the deflection leaves the receivers and the settings alone, the buttons are judged by the settings in use (R93). -/
theorem reportTaken_buttons {s : State} {l : Link} {d : Int} (n b : Byte)
    (hq : (handDeflection (reportArrived s l d) l d).hlr = (reportArrived s l d).hlr)
    (hu : (handDeflection (reportArrived s l d) l d).helm.inUse = s.helm.inUse) :
    SameButtons (Hlr.takeButtons (s.helm.inUse.get l) b { s.hlr.get l with
      link := if (s.hlr.get l).link = .absent ∨ (s.hlr.get l).link = .lost then .suspect else (s.hlr.get l).link })
      ((reportTaken s l d n b).hlr.get l) := by
  rw [reportTaken, reportEnds, withLink_get, hq, hu, reportArrived_get]
  refine SameButtons.takeButtons ?_ _ _
  rw [takeSequence_eq]
  exact ⟨rfl, rfl, rfl⟩

/-! ## HELM after a report -/

/-- The events of a report that finds its link (R91, R184). -/
def foundEvents (x : Hlr) (l : Link) : List Event := if x.link = .absent ∨ x.link = .lost then [.linkState l .suspect] else []

theorem reportArrived_sru (s : State) (l : Link) (d : Int) : (reportArrived s l d).sru = acceptAll s.sru s (foundEvents (s.hlr.get l) l) :=
  raiseAll_sru ..

/-- A deflection that makes a claim finds an IDLE claimant, so coast stays (R92, R102). -/
theorem movesOut_not_holder {s : State} {l : Link} {d : Int} (h : movesOut s l d) : s.helm.holder ≠ some (claimantOf l) := by
  intro hh
  have hi := h.1
  rw [claimState_holding.mpr hh] at hi
  cases hi

section
variable {s : State} {l : Link} {d : Int}

theorem reportArrived_helm (h : movesOut s l d) : (reportArrived s l d).helm = s.helm := by
  rw [reportArrived, State.withHelm_helm, if_neg (movesOut_not_holder h)]

theorem reportTaken_still (n b : Byte) (h : ¬movesOut s l d) :
    reportTaken s l d n b = reportEnds (deflected (reportArrived s l d) l d) l n b :=
  congrArg (reportEnds · l n b) (handDeflection_still (s := reportArrived s l d) h)

theorem handDeflection_arrived (h : movesOut s l d) :
    handDeflection (reportArrived s l d) l d = judgeClaim (deflected (reportArrived s l d) l d) (claimantOf l) :=
  handDeflection_moves (s := reportArrived s l d) h

theorem linkRefuses_arrived : linkRefuses (deflected (reportArrived s l d) l d) (claimantOf l) = ((s.hlr.get l).link != .active) := by
  rw [linkRefuses_claimantOf]
  show (((reportArrived s l d).hlr.get l).link != .active) = _
  rw [reportArrived_get]
  cases hx : (s.hlr.get l).link
  case absent | lost =>
    simp [Hlr.arrived, hx]
    rfl
  all_goals simp [Hlr.arrived, hx]

theorem linkRefuses_arrived_active (h : (s.hlr.get l).link = .active) :
    linkRefuses (deflected (reportArrived s l d) l d) (claimantOf l) = false := by
  rw [linkRefuses_arrived, h]
  rfl

theorem foundEvents_active (h : (s.hlr.get l).link = .active) : foundEvents (s.hlr.get l) l = [] := by
  rw [foundEvents, h]
  rfl

theorem reportArrived_sru_active (h : (s.hlr.get l).link = .active) : (reportArrived s l d).sru = s.sru := by
  rw [reportArrived_sru, foundEvents_active h]
  rfl

theorem reportArrived_ftu : (reportArrived s l d).ftu = s.ftu := raiseAll_ftu ..

theorem changeHolder_deflected_sru (h : (s.hlr.get l).link = .active) (old new : Option Claimant) (stack : List Claimant) :
    (changeHolder ((deflected (reportArrived s l d) l d).withHelm { (deflected (reportArrived s l d) l d).helm with stack := stack })
      old new .claim).sru = acceptAll s.sru s [.helmChange old new .claim] := by
  rw [changeHolder, raise_sru]
  show (reportArrived s l d).sru.accept _ (reportArrived s l d).ftu.frame (reportArrived s l d).ftu.tick = _
  rw [reportArrived_sru_active h, reportArrived_ftu]
  rfl

theorem handDeflection_refused (h : movesOut s l d) (hx : (s.hlr.get l).link ≠ .active) : handDeflection (reportArrived s l d) l d =
    (deflected (reportArrived s l d) l d).withHelm { (deflected (reportArrived s l d) l d).helm with
      refused := s.helm.refused + 1 } := by
  rw [handDeflection_arrived h, judgeClaim_refused (by rw [linkRefuses_arrived]; simpa using hx)]
  rfl

theorem handDeflection_free (h : movesOut s l d) (hx : (s.hlr.get l).link = .active) (hh : s.helm.holder = none) :
    handDeflection (reportArrived s l d) l d =
      changeHolder (deflected (reportArrived s l d) l d) none (some (claimantOf l)) .claim := by
  rw [handDeflection_arrived h, judgeClaim_free (linkRefuses_arrived_active hx) h.1 hh]

theorem reportArrived_set : (reportArrived s l d).sru.set = s.sru.set := by rw [reportArrived_sru, acceptAll_set]

theorem outranks_arrived {a c : Claimant} : outranks (deflected (reportArrived s l d) l d) a c ↔ outranks s a c := by
  show (reportArrived s l d).sru.set.helmMode = _ ∧ levelOf (reportArrived s l d).sru.set a < levelOf (reportArrived s l d).sru.set c ↔ _
  rw [reportArrived_set]
  rfl

theorem handDeflection_preempts {a : Claimant} (h : movesOut s l d) (hx : (s.hlr.get l).link = .active)
    (hh : s.helm.holder = some a) (ho : outranks s a (claimantOf l)) : handDeflection (reportArrived s l d) l d =
      preempt (deflected (reportArrived s l d) l d) a (claimantOf l) .claim := by
  rw [handDeflection_arrived h, judgeClaim_preempts (linkRefuses_arrived_active hx) h.1 hh (outranks_arrived.mpr ho)]

theorem handDeflection_waits {a : Claimant} (h : movesOut s l d) (hx : (s.hlr.get l).link = .active)
    (hh : s.helm.holder = some a) (ho : ¬outranks s a (claimantOf l)) : handDeflection (reportArrived s l d) l d =
      putStaged (joined (deflected (reportArrived s l d) l d) (claimantOf l)) l := by
  rw [handDeflection_arrived h, judgeClaim_waits (linkRefuses_arrived_active hx) h.1 hh (mt outranks_arrived.mp ho), putStagedOf_claimantOf]

/-- A deflection that leaves its claimant where staged settings do not come into use touches no receiver and no setting (R92, R121). -/
theorem handDeflection_keeps
    (h : ¬(movesOut s l d ∧ (s.hlr.get l).link = .active ∧ ∃ a, s.helm.holder = some a ∧ ¬outranks s a (claimantOf l))) :
    (handDeflection (reportArrived s l d) l d).hlr = (reportArrived s l d).hlr ∧
      (handDeflection (reportArrived s l d) l d).helm.inUse = s.helm.inUse := by
  by_cases hm : movesOut s l d
  · by_cases hx : (s.hlr.get l).link = .active
    · cases hh : s.helm.holder with
      | none => rw [handDeflection_free hm hx hh]; exact ⟨rfl, rfl⟩
      | some a =>
        have ho : outranks s a (claimantOf l) := by
          by_contra hn
          exact h ⟨hm, hx, a, hh, hn⟩
        rw [handDeflection_preempts hm hx hh ho]
        exact ⟨rfl, rfl⟩
    · rw [handDeflection_refused hm hx]
      exact ⟨rfl, rfl⟩
  · rw [handDeflection_still (s := reportArrived s l d) hm]
    exact ⟨rfl, rfl⟩

end

/-- Settles O32. -/
theorem handReportTaken : Obligations.HandReportTaken := by
  intro s l t0 t1 t2 t3 t4 n d b k hr hp h01 g1 h12 g2 h23 g3 h34 g4 hsum c x gone taken
  have ha := Acts.handReport (s := s) (l := l)
    (bytes := [⟨t0, 0x5A, false⟩, ⟨t1, n, false⟩, ⟨t2, d, false⟩, ⟨t3, b, false⟩, ⟨t4, k, false⟩])
  have hw := acts_writes ha
  have hbytes := handBytes_report hr hp h01 g1 h12 g2 h23 g3 h34 g4 hsum
  rw [takeReport_eq] at hbytes
  change _ = reportTaken (s.withFtu (s.ftu.reach t4)) l taken n b at hbytes
  rw [hbytes] at ha hw
  have he := exec_of_acts ha
  rw [finish, if_neg (by simp)] at he
  change Writes [.hlr, .helm, .ftu] s _ at hw
  have hftu : (reportTaken (s.withFtu (s.ftu.reach t4)) l taken n b).ftu = s.ftu.reach t4 := by
    have hf := (writes_takeReport (s.withFtu (s.ftu.reach t4)) l n d b).ftu (by decide)
    rwa [takeReport_eq] at hf
  obtain ⟨bs, fs, hy⟩ := reportTaken_receiver (s.withFtu (s.ftu.reach t4)) l taken n b
  have raises {es : List Event} (hs : (handDeflection (reportArrived (s.withFtu (s.ftu.reach t4)) l taken) l taken).sru =
      acceptAll s.sru (s.withFtu (s.ftu.reach t4)) es) :
      onlyRaises [.hlr, .helm, .ftu] es s (arbitrate (reportTaken (s.withFtu (s.ftu.reach t4)) l taken n b)) :=
    hw.onlyRaises_arbitrate (hs.trans (acceptAll_congr hftu.symm ..))
  refine ⟨_, he, (hw.mono (by decide)).onlyChanges_arbitrate (.inl (by decide)), ?_, ?_, ?_, fun m hm => ?_, fun hm => ?_,
    fun hk => ?_, fun hm hx => ?_, fun hm hx hh => ?_, fun a hm hx hh ho => ?_, fun a hm hx hh ho => ?_⟩
  · rw [arbitrate_ftu, hftu]
    rfl
  · rw [arbitrate_helm]
    exact reportTaken_last ..
  · rw [arbitrate_hlr, hy]
    exact ⟨hp, rfl, rfl, rfl, rfl, rfl, rfl, fun h => if_pos h, fun h => if_neg h, rfl, rfl, rfl, rfl,
      fun h => takeSequence_first h n, fun _ h => takeSequence_next h n⟩
  · rw [arbitrate_hlr, reportTaken_other _ _ _ _ hm]
    rfl
  · have hq := handDeflection_still (s := reportArrived (s.withFtu (s.ftu.reach t4)) l taken) hm
    refine ⟨raises ?_, ?_⟩
    · rw [hq]
      exact reportArrived_sru (s.withFtu (s.ftu.reach t4)) l taken
    · rw [arbitrate_helm, reportTaken_still (s := s.withFtu (s.ftu.reach t4)) _ _ hm]
      rfl
  · obtain ⟨h1, h2⟩ := handDeflection_keeps (s := s.withFtu (s.ftu.reach t4)) hk
    have hb := reportTaken_buttons n b h1 h2
    rw [arbitrate_hlr]
    exact ⟨hb.buttons, hb.fired⟩
  · have hq := handDeflection_refused (s := s.withFtu (s.ftu.reach t4)) hm hx
    have hh := reportArrived_helm (s := s.withFtu (s.ftu.reach t4)) hm
    refine ⟨raises ?_, ?_⟩
    · rw [hq]
      exact reportArrived_sru (s.withFtu (s.ftu.reach t4)) l taken
    · rw [arbitrate_helm, reportTaken, hq]
      simp only [reportEnds, deflected, State.withLink_helm, State.withHelm_helm, hh]
      rfl
  · have hq := handDeflection_free (s := s.withFtu (s.ftu.reach t4)) hm hx hh
    have harr := reportArrived_helm (s := s.withFtu (s.ftu.reach t4)) hm
    refine ⟨raises ?_, ?_⟩
    · rw [hq]
      exact changeHolder_deflected_sru (s := s.withFtu (s.ftu.reach t4)) hx none (some c) _
    · rw [arbitrate_helm, reportTaken, hq]
      simp only [reportEnds, deflected, State.withLink_helm, State.withHelm_helm, changeHolder_helm, harr]
      rfl
  · have hq := handDeflection_preempts (s := s.withFtu (s.ftu.reach t4)) hm hx hh ho
    have harr := reportArrived_helm (s := s.withFtu (s.ftu.reach t4)) hm
    refine ⟨raises ?_, ?_⟩
    · rw [hq]
      exact changeHolder_deflected_sru (s := s.withFtu (s.ftu.reach t4)) hx (some a) (some c) _
    · rw [arbitrate_helm, reportTaken, hq]
      simp only [reportEnds, deflected, preempt, State.withLink_helm, State.withHelm_helm, changeHolder_helm, harr]
      rfl
  · have hq := handDeflection_waits (s := s.withFtu (s.ftu.reach t4)) hm hx hh ho
    have harr := reportArrived_helm (s := s.withFtu (s.ftu.reach t4)) hm
    obtain ⟨hsru, hhelm⟩ := putStaged_joined_quiet (p := deflected (reportArrived (s.withFtu (s.ftu.reach t4)) l taken) l taken)
      (reportArrived_silence _ l taken)
    refine ⟨hw.onlyChanges_arbitrate (.inr ?_), ?_, ?_⟩
    · rw [reportTaken, hq]
      exact hsru.trans (reportArrived_sru_active (s := s.withFtu (s.ftu.reach t4)) (d := taken) hx)
    · refine stagedTaken_of (v := joined (deflected (reportArrived (s.withFtu (s.ftu.reach t4)) l taken) l taken) c) rfl rfl ?_ ?_ <;>
      · rw [arbitrate_helm, reportTaken, hq]
        rfl
    · rw [arbitrate_helm, reportTaken, hq]
      simp only [reportEnds, State.withLink_helm]
      rw [hhelm]
      simp only [deflected, State.withHelm_helm, harr]
      rfl

end Sys2Proof.Machine

/-! The report window: the consume index, the attention word, the records of the events and the status block (R182, R183, R195 to
R204). -/

namespace Sys2Proof.Machine

open Sys2Proof.Config

/-! ## The consume index (R204) -/

theorem laneOf_zero (w : Word) : laneOf w 0 = w.setWidth 8 := by
  ext i
  simp [laneOf]

theorem takeConsume_near {x : Sru} {w : Word} (h : (x.produce - w.setWidth 8).toNat ≤ 32) :
    x.takeConsume w = { x with consume := w.setWidth 8 } := by
  have h' : (x.produce - laneOf w 0).toNat ≤ ringRecords := by
    rw [laneOf_zero]
    exact h
  rw [Sru.takeConsume, if_pos h', laneOf_zero]

theorem takeConsume_far {x : Sru} {w : Word} (h : 32 < (x.produce - w.setWidth 8).toNat) :
    x.takeConsume w = { x with consume := x.produce } := by
  have h' : ¬(x.produce - laneOf w 0).toNat ≤ ringRecords := by
    rw [laneOf_zero]
    exact Nat.not_le.mpr h
  rw [Sru.takeConsume, if_neg h']

/-- A hand-over that the SRU takes for itself (R170). -/
theorem writes_afterHandover_sru (s : State) (rest : List Handover) (x : Sru) :
    Writes [.ptp, .sru] s ((afterHandover s rest).withSru x) :=
  ((Writes.refl _ s).withPtp _ (by decide)).withSru x (by decide)

/-- Settles O57. -/
theorem consumeTaken : Obligations.ConsumeTaken := by
  intro s w rest hh c
  have ha := Acts.consumeWrite hh
  refine ⟨_, exec_of_acts ha, Writes.onlyChanges (writes_afterHandover_sru ..) (.inl (by decide)), rfl, fun h => sruIs_of_eq ?_, fun h => sruIs_of_eq ?_⟩
  · exact takeConsume_near h
  · exact takeConsume_far h

/-! ## Events and the attention latch (R198 to R202) -/

theorem getLsbD_groupBit {g k : Nat} (hg : g < 12) : (groupBit k).getLsbD g = (g == k) := by
  show (BitVec.ofNat 12 (1 <<< k)).getLsbD g = _
  rw [BitVec.getLsbD_ofNat, Nat.one_shiftLeft, Nat.testBit_two_pow]
  simp [hg, beq_eq_decide, eq_comm]

theorem getLsbD_eventBits (x : Sru) (e : Event) {g : Nat} (hg : g < 12) :
    (x.eventBits e).getLsbD g = (g == eventGroup e || (!x.hasRoom && g == 11)) := by
  rw [Sru.eventBits, BitVec.getLsbD_or, getLsbD_groupBit hg]
  cases x.hasRoom
  · rw [if_neg (by simp), getLsbD_groupBit hg]
    rfl
  · rw [if_pos rfl]
    simp

theorem getLsbD_clearedBits (x : Sru) (w : Word) {g : Nat} (hg : g < 12) :
    (clearedBits x w).getLsbD g = (w.getLsbD g && x.latch.getLsbD g && !x.fresh.getLsbD g) := by
  simp [clearedBits, hg]

/-- Clearing bits that stand changes the value exactly when there are any. -/
theorem and_not_eq_self_iff {x c : BitVec 12} (h : x &&& c = c) : x &&& ~~~c = x ↔ c = 0#12 := by
  refine ⟨fun he => ?_, ?_⟩
  · calc c = (x &&& ~~~c) &&& c := by rw [he, h]
      _ = 0#12 := by
        rw [BitVec.and_assoc]
        ext i
        simp
  · rintro rfl
    ext i
    simp only [BitVec.getElem_and, BitVec.getElem_not, BitVec.getElem_zero, Bool.not_false, Bool.and_true]

theorem latch_keeps_iff (x : Sru) (w : Word) : x.latch &&& ~~~clearedBits x w = x.latch ↔ clearedBits x w = 0#12 := by
  refine and_not_eq_self_iff ?_
  ext i hi
  simp only [clearedBits, BitVec.getElem_and]
  cases x.latch[i] <;> simp

/-- Every event has its code, its group and its parameters (R183, R198). -/
theorem recordIs_of {e : Event} {code group : Nat} {p1 p2 : Half} {p3 : Word} (hg : eventGroup e = group) (hc : eventCode e = code)
    (hp : eventParams e = (p1, p2, p3)) : recordIs e code group p1 p2 p3 := by
  refine ⟨hg, fun n frame tick => ?_⟩
  simp [recordWordAt, hc, hp]

theorem hasRoom_iff {x : Sru} : x.hasRoom = true ↔ (x.produce - x.consume).toNat < 32 := decide_eq_true_iff

theorem orFlag_ne {x y : BitVec 12} {b : Bool} (h : y ≠ x) : (b || y != x) = true := by simp [h]

theorem orFlag_eq {x y : BitVec 12} {b : Bool} (h : y = x) : (b || y != x) = b := by simp [h]

theorem irqLow_iff (s : State) : irqLow s = true ↔
    s.sru.set.intEnable = true ∧ ∃ g, g < 12 ∧ s.sru.latch.getLsbD g = true ∧ s.sru.set.mask.getLsbD g = true := by
  rw [irqLow, Bool.and_eq_true, bne_iff_ne, ne_eq]
  refine and_congr_right fun _ => ⟨fun h => ?_, ?_⟩
  · by_contra hn
    refine h (BitVec.eq_of_getLsbD_eq fun g hg => ?_)
    rw [show (0 : BitVec 12).getLsbD g = false from BitVec.getLsbD_zero, Bool.eq_false_iff, BitVec.getLsbD_and, ne_eq, Bool.and_eq_true]
    exact fun hb => hn ⟨g, hg, hb⟩
  · rintro ⟨g, -, hl, hm⟩ h
    have hb := congrArg (BitVec.getLsbD · g) h
    simp [hl, hm] at hb

/-- Settles O56. -/
theorem eventsAndAttention : Obligations.EventsAndAttention := by
  refine ⟨fun s e => ⟨rfl, rfl, fun hr => ?_, fun hr => ?_, fun h => orFlag_ne h, fun h => orFlag_eq h⟩, irqLow_iff, ?_, fun s w rest hh => ?_⟩
  · have hroom : s.sru.hasRoom = true := hasRoom_iff.mpr hr
    refine ⟨if_pos hroom, if_pos hroom, fun g hg => ?_⟩
    simp [raise, Sru.accept, getLsbD_eventBits _ _ hg, hroom]
  · have hroom : s.sru.hasRoom = false := by rw [← Bool.not_eq_true, hasRoom_iff]; omega
    have hn : ¬s.sru.hasRoom = true := by simp [hroom]
    refine ⟨if_neg hn, if_neg hn, fun g hg => ?_⟩
    simp [raise, Sru.accept, getLsbD_eventBits _ _ hg, hroom, Bool.or_assoc]
  · dsimp only
    refine ⟨fun c => recordIs_of rfl rfl (by cases c <;> rfl), fun _ _ _ _ => recordIs_of rfl rfl rfl, fun _ _ => recordIs_of rfl rfl rfl,
      fun _ _ c => recordIs_of rfl rfl (by cases c <;> rfl), fun _ _ _ => recordIs_of rfl rfl rfl,
      fun _ _ _ => recordIs_of rfl rfl rfl, fun _ _ => recordIs_of rfl rfl rfl,
      fun _ owner _ => recordIs_of rfl rfl (by cases owner <;> rfl), fun _ owner _ => recordIs_of rfl rfl (by cases owner <;> rfl),
      fun old new c => recordIs_of rfl rfl ?_, fun l st => recordIs_of rfl rfl ?_, fun _ _ _ => recordIs_of rfl rfl rfl,
      fun _ _ => recordIs_of rfl rfl rfl, fun _ _ => recordIs_of rfl rfl rfl, fun _ _ _ => recordIs_of rfl rfl rfl,
      fun _ _ => recordIs_of rfl rfl rfl, fun _ _ => recordIs_of rfl rfl rfl, fun _ _ => recordIs_of rfl rfl rfl,
      fun _ _ _ => recordIs_of rfl rfl rfl, fun st _ _ => recordIs_of rfl rfl (by cases st <;> rfl),
      fun h st _ => recordIs_of rfl rfl ?_, fun h _ => recordIs_of rfl rfl (by cases h <;> rfl),
      fun h _ => recordIs_of rfl rfl (by cases h <;> rfl)⟩
    · exact Prod.ext (by rcases old with _ | _ | _ | _ <;> rfl)
        (Prod.ext (by rcases new with _ | _ | _ | _ <;> rfl) (by cases c <;> rfl))
    · exact Prod.ext (by cases l <;> rfl) (Prod.ext (by cases st <;> rfl) rfl)
    · exact Prod.ext (by cases h <;> rfl) (Prod.ext (by cases st <;> rfl) rfl)
  · have ha := Acts.attentionRead hh
    refine ⟨_, _, _, exec_of_acts ha, Writes.onlyChanges (writes_afterHandover_sru ..) (.inl (by decide)), rfl, sruIs_of_eq rfl,
      fun g hg => ?_, ?_, ?_⟩
    · rw [BitVec.getLsbD_and, BitVec.getLsbD_not, getLsbD_clearedBits _ _ hg]
      cases s.sru.latch.getLsbD g <;> simp [hg]
    · intro hne
      have hc : clearedBits s.sru w ≠ 0#12 := mt (latch_keeps_iff ..).mpr hne
      show (s.sru.attnReq || clearedBits s.sru w != 0#12) = true
      simp [hc]
    · intro heq
      have hc : clearedBits s.sru w = 0#12 := (latch_keeps_iff ..).mp heq
      show (s.sru.attnReq || clearedBits s.sru w != 0#12) = s.sru.attnReq
      simp [hc]

end Sys2Proof.Machine

/-! The status block: the snapshot, its words, and the processor's reads of it while it is written (R182, R195 to R197). -/

namespace Sys2Proof.Machine

open Sys2Proof.Config

/-! ## The words of the block (R182) -/

theorem ofNat_holderCode (c : Option Claimant) : (BitVec.ofNat 8 (holderCode c) : Byte) =
    match c with | none => 0 | some .operator => 1 | some .presenter => 2 | some .auto => 3 := by
  rcases c with _ | _ | _ | _ <;> rfl

theorem ofNat_claimStateCode (c : ClaimState) : (BitVec.ofNat 8 (claimStateCode c) : Byte) =
    match c with | .idle => 0 | .pending => 1 | .holding => 2 | .suspended => 3 := by
  cases c <;> rfl

theorem ofNat_linkStateCode (c : LinkState) : (BitVec.ofNat 8 (linkStateCode c) : Byte) =
    match c with | .absent => 0 | .suspect => 1 | .active => 2 | .lost => 3 := by
  cases c <;> rfl

theorem ofNat_headStateCode (c : HeadState) : (BitVec.ofNat 8 (headStateCode c) : Byte) =
    match c with | .silent => 0 | .up => 1 | .stalled => 2 := by
  cases c <;> rfl

theorem ofNat_shownLag (frame : Half) (x : Hlt) : (BitVec.ofNat 16 (shownLag frame x) : Half) =
    match x.state, x.lastAck with | .silent, _ => 0 | _, none => 0 | _, some a => frame - a := by
  have hlag : (BitVec.ofNat 16 (lagOf frame x) : Half) = match x.lastAck with | none => 0 | some a => frame - a := by
    unfold lagOf
    cases x.lastAck with
    | none => rfl
    | some a => exact BitVec.ofNat_toNat ..
  unfold shownLag
  cases x.state
  case silent => rfl
  all_goals
    rw [if_neg (by simp), hlag]
    cases x.lastAck <;> rfl

theorem syncCode_eq (k : SyncState) : syncCode k = match k with | .substitute => 0 | .acquiring => 1 | .locked => 2 := by
  cases k <;> rfl

theorem flagCodes_eq (n : Nat) (p c : Bool) :
    n + 0x100 * (flagCode p + 2 * flagCode c) = n + (if p then 0x100 else 0) + if c then 0x200 else 0 := by
  cases p <;> cases c <;> rfl

/-! ## The snapshot (R195, R196) -/

theorem quadAny_eq_false {q : Quad Bool} (h : ∀ k, q.get k = false) : q.any id = false := by
  have h0 : q.h0 = false := h .h0
  have h1 : q.h1 = false := h .h1
  have h2 : q.h2 = false := h .h2
  have h3 : q.h3 = false := h .h3
  simp [Quad.any, h0, h1, h2, h3]

theorem takeSnapshot_sru (s : State) : (takeSnapshot s).sru =
    { s.sru with status := some ⟨statusWordsOf s, 0⟩, request := (takeSnapshot s).sru.request } := by
  unfold takeSnapshot
  dsimp only
  split <;> rfl

/-- A status word in progress completes for no one (R196). -/
theorem takeSnapshot_busy {s : State} {a : PortAccess} (hb : s.port.busy = some a) (ho : a.owner = .part .sru)
    (hr : s.sru.request = some .status) : (takeSnapshot s).port.busy = some { a with orphan := true } := by
  have hp : holdsPort s .sru = true := by simp [holdsPort, hb, ho]
  have ht : takeSnapshot s =
      (orphanOf s .sru).withSru { s.sru with status := some ⟨statusWordsOf s, 0⟩, request := none } := if_pos ⟨hr, hp⟩
  rw [ht, orphanOf, if_pos hp]
  show Option.map _ s.port.busy = _
  rw [hb]
  rfl

/-- Settles O55. -/
theorem statusSnapshotTaken : Obligations.StatusSnapshotTaken := by
  refine ⟨fun s hd hsce hhlt => ?_, fun s k hk hread hlo hhi hst => ?_, fun s x hr hst => ?_⟩
  · have hany : s.ftu.due.hlt.any id = false := quadAny_eq_false hhlt
    have ha := Acts.statusSnapshot hd hsce hany
    have hw := acts_writes ha
    generalize hv : s.withFtu { s.ftu with due := { s.ftu.due with sru := false } } = v at ha hw
    have hftu : (takeSnapshot v).ftu = v.ftu := (writes_takeSnapshot v).ftu (by decide)
    refine ⟨_, statusWordsOf v, exec_of_acts ha, ?_⟩
    rw [finish, if_neg (by simp)]
    refine ⟨(hw.mono (by decide)).onlyChanges_arbitrate (.inl (by decide)), ?_, ?_, fun a hb ho hr => ?_, ?_⟩
    · refine sruIs_congr (arbitrate_sruIs _) ?_
      rw [takeSnapshot_sru, ← hv]
      rfl
    · rw [arbitrate_ftu, hftu, ← hv]
      rfl
    · have hb' := takeSnapshot_busy (s := v) (hv ▸ hb) ho (hv ▸ hr)
      rw [(arbitrate_portKept _ (by rw [hb']; simp)).1]
      exact hb'
    · subst hv
      refine ⟨rfl, ?_, rfl, rfl, rfl, ?_, ⟨?_, ?_, ?_, ?_, ?_⟩, rfl⟩
      · simp only [statusWordsOf, syncCode_eq]
        rfl
      · simp only [statusWordsOf, flagCodes_eq]
        rfl
      · simp only [statusWordsOf, ofNat_holderCode, ofNat_claimStateCode]
        rfl
      · simp only [statusWordsOf, ofNat_linkStateCode]
        rfl
      · simp only [statusWordsOf, ofNat_headStateCode]
        rfl
      · simp only [statusWordsOf, ofNat_shownLag]
        rfl
      · simp only [statusWordsOf, ofNat_shownLag]
        rfl
  · have hin : inStatusBlock k.acc.ha.toNat = true := decide_eq_true ⟨hlo, hhi⟩
    have hsome : s.sru.status.isSome = true := Option.isSome_iff_ne_none.mpr hst
    simp [processorWaits, hk, hread, hin, hsome]
  · simp only [partAccess, sruAccess, hr, hst]
    rfl

end Sys2Proof.Machine

/-! The shift of a view table (R147, R150). -/

namespace Sys2Proof.Machine

open Sys2Proof.Config

section
variable {rows : List Row} {i : Int}

theorem slotAtIndex_row {r : Row} (h : 0 ≤ i) (hr : rows[i.toNat]? = some r) : slotAtIndex rows i = some r.slot := by
  rw [slotAtIndex, if_neg (by omega), hr]
  rfl

theorem slotAtIndex_outside (h : i < 0 ∨ (rows.length : Int) ≤ i) : slotAtIndex rows i = none := by
  unfold slotAtIndex
  split
  · rfl
  · rw [List.getElem?_eq_none (by omega)]
    rfl

end

/-- The position of a shifted view (R150). -/
def shiftedEntry (rows : List Row) (view : List ViewEntry) (size : Nat) (previous top : Int) (p : Nat) : ViewEntry :=
  ⟨slotAtIndex rows (top + p),
    (if 0 ≤ p + (top - previous) ∧ p + (top - previous) ≤ size then view[(p + (top - previous)).toNat]? else none).any
      (fun v => v.sent && v.slot == slotAtIndex rows (top + p))⟩

theorem shiftView_eq_map (rows : List Row) (view : List ViewEntry) (size : Nat) (previous top : Int) :
    shiftView rows view size previous top = (List.range (size + 1)).map (shiftedEntry rows view size previous top) := by
  have hcast : (do let a ← List.range (size + 1); pure (a : Int)) = (List.range (size + 1)).map Nat.cast :=
    List.flatMap_pure_eq_map ..
  rw [shiftView, hcast, List.map_map]
  rfl

theorem shiftView_getElem? (rows : List Row) (view : List ViewEntry) {size p : Nat} (previous top : Int) (h : p ≤ size) :
    (shiftView rows view size previous top)[p]? = some (shiftedEntry rows view size previous top p) := by
  rw [shiftView_eq_map, List.getElem?_map, List.getElem?_range (by omega)]
  rfl

/-- Settles O46. -/
theorem viewShift : Obligations.ViewShift := by
  intro rows view size previous top
  refine ⟨by rw [shiftView_eq_map, List.length_map, List.length_range], fun p hp => ⟨_, shiftView_getElem? rows view previous top hp,
    fun r h0 hr => slotAtIndex_row h0 hr,
    fun h => slotAtIndex_outside h, fun v h0 h1 hv => ?_, fun h => ?_⟩⟩
  · have hsent : (shiftedEntry rows view size previous top p).sent =
        (v.sent && v.slot == (shiftedEntry rows view size previous top p).slot) := by
      simp only [shiftedEntry]
      rw [if_pos ⟨h0, h1⟩, hv]
      rfl
    refine ⟨fun hs => ?_, fun hs => ?_⟩
    · rw [hsent, ← hs, beq_self_eq_true, Bool.and_true]
    · rw [hsent, beq_eq_false_iff_ne.mpr hs, Bool.and_false]
  · simp only [shiftedEntry]
    rw [if_neg (by omega)]
    rfl

end Sys2Proof.Machine

/-! Settings with no behaviour of their own, the guard band, the near-full threshold, the attention mask and the interrupt enable
(R30, R45, R179, R180, R186 to R188, R201). -/

namespace Sys2Proof.Machine

open Sys2Proof.Config

/-- What a setting taken has done before anything follows it (R170, R186, R187). -/
theorem settled_taken (s : State) (rest : List Handover) (es : List Event) (c : Settings) :
    handoverTaken rest s (settled s rest es c) ∧ onlyChanges [.ptp, .sru] s (settled s rest es c) ∧
      (settled s rest es c).sru.set = c ∧ eventsTaken es s (settled s rest es c) := by
  have hf : Follows [] [] (settled s rest es c) (settled s rest es c) := .refl _ _
  have he := hf.eventsTaken (by simp)
  rw [List.append_nil] at he
  exact ⟨hf.handoverTaken (by simp), hf.onlyChanges (by simp) (by simp), hf.set, he⟩

/-- A word taken with its report, the settings then being those that `put` gives (R186, R187). -/
theorem reported_settled (s : State) (rest : List Handover) (o n : Nat) (w : Word) (put : Settings → Settings) :
    withSettings (reportClamp (afterHandover s rest) o n w) (put (reportClamp (afterHandover s rest) o n w).sru.set) =
      settled s rest (clampReport o n w) (put s.sru.set) := by
  rw [reportClamp_eq, raiseAll_sru_set]
  rfl

/-! ## Plain settings (R179, R186) -/

/-- The report of a plain setting (R187). -/
def plainReport (o : Nat) (c : ControlWord) (w : Word) : List Event :=
  match c with
  | .editMode => clampReport o (editModeCode (editModeOf w)) w
  | .autoSpeed => if autoSpeedOf w = w.toInt then [] else [.settingClamped o (.ofInt 16 (autoSpeedOf w)) w]
  | _ => clampReport o (plainNumber c w) w

theorem reportPlain_eq (s : State) (o : Nat) (c : ControlWord) (w : Word) : reportPlain s o c w = raiseAll s (plainReport o c w) := by
  unfold reportPlain
  split
  · exact reportClamp_eq ..
  · unfold plainReport
    split <;> rfl
  · rw [plainReport.eq_3 _ _ _ ‹_› ‹_›]
    exact reportClamp_eq ..

theorem takePlainSetting_eq (s : State) (rest : List Handover) (o : Nat) (c : ControlWord) (w : Word) :
    takePlainSetting (afterHandover s rest) o c w = settled s rest (plainReport o c w) (s.sru.set.takePlain c w) := by
  unfold takePlainSetting
  dsimp only
  rw [reportPlain_eq, raiseAll_sru_set]
  rfl

theorem plain_taken {s : State} {o : Nat} {w : Word} {rest : List Handover} {c : ControlWord} (h : s.ptp.handovers = .setting o w :: rest)
    (hc : (controlWordAt o).bind plainWord = some c) : ∃ t, leaves .settingWrite s t ∧ handoverTaken rest s t ∧ onlyChanges [.ptp, .sru] s t ∧
      t.sru.set = s.sru.set.takePlain c w ∧ eventsTaken (plainReport o c w) s t := by
  have ha := Acts.settingWrite h hc
  rw [takePlainSetting_eq] at ha
  exact ⟨_, exec_of_acts ha, settled_taken ..⟩

theorem editModeOf_eq (w : Word) : editModeOf w = if w = 0 then .pass else if w = 1 then .batch else .shelter := by
  have hz : w = 0 ↔ w.toNat = 0 := by bv_omega
  have ho : w = 1 ↔ w.toNat = 1 := by bv_omega
  unfold editModeOf
  simp only [hz, ho]
  split
  · next h => rw [if_pos h]
  · next h => rw [if_neg (by omega), if_pos h]
  · next h0 h1 => rw [if_neg h0, if_neg h1]

theorem editModeCode_editModeOf (w : Word) : editModeCode (editModeOf w) = min 2 w.toNat := by
  unfold editModeOf
  split
  · next h => rw [h]; rfl
  · next h => rw [h]; rfl
  · next h0 h1 => rw [Nat.min_eq_left (Nat.two_le_iff _ |>.mpr ⟨h0, h1⟩)]; rfl

theorem controlWordAt_curve {b : Bool} {k : Nat} (h : k < 17) :
    controlWordAt ((if b then 0x180 else 0x100) + 4 * k) = some (.curve b k) := by
  cases b <;> interval_cases k <;> rfl

/-! ## The guard band and the near-full threshold (R30, R45) -/

/-- The guard band a word is taken as is in use, with its report (R187). -/
def guardSettled (s : State) (rest : List Handover) (w : Word) : State :=
  settled s rest (clampReport 0x00C (min 15 w.toNat) w) { s.sru.set with guardBand := min 15 w.toNat }

theorem takeGuardBand_eq (s : State) (rest : List Handover) (w : Word) :
    takeGuardBand (afterHandover s rest) 0x00C w = recomputeOnAir (guardSettled s rest w) := by
  have hn : clamp 0 15 w.toNat = min 15 w.toNat := Nat.zero_max _
  unfold takeGuardBand
  dsimp only
  rw [hn]
  exact congrArg recomputeOnAir (reported_settled s rest _ _ w (fun x => { x with guardBand := min 15 w.toNat }))

/-- The near-full threshold a word is taken as is in use, with its report (R187). -/
def nearSettled (s : State) (rest : List Handover) (w : Word) : State :=
  settled s rest (clampReport 0x014 (max 1 (min 64 w.toNat)) w) { s.sru.set with nearFull := max 1 (min 64 w.toNat) }

theorem takeNearFull_eq (s : State) (rest : List Handover) (w : Word) :
    takeNearFull (afterHandover s rest) 0x014 w = nearFullTest (nearSettled s rest w) :=
  congrArg nearFullTest (reported_settled s rest _ _ w (fun x => { x with nearFull := max 1 (min 64 w.toNat) }))

theorem nearFullStep_eq (flag : Bool) (count n : Nat) : nearFullStep flag count n =
    (decide (n ≤ count), if n ≤ count ∧ flag = false then [.holdNear count n] else []) := by
  unfold nearFullStep
  by_cases h : n ≤ count <;> cases flag <;> simp [h]

/-- The near-full flag against the hold count, and its event (R45). -/
theorem follows_nearFullTest (v : State) : Follows [.ehu]
    (if v.sru.set.nearFull ≤ v.ehu.queue.length ∧ v.ehu.nearFull = false then
      [.holdNear v.ehu.queue.length v.sru.set.nearFull] else []) v (nearFullTest v) := by
  refine ⟨writes_nearFullTest v, ?_⟩
  unfold nearFullTest
  dsimp only
  rw [nearFullStep_eq]
  exact (raiseAll_sru ..).trans (acceptAll_congr (raiseAll_ftu ..) ..).symm

theorem nearFullTest_ehu (v : State) : (nearFullTest v).ehu =
    { v.ehu with nearFull := decide (v.sru.set.nearFull ≤ v.ehu.queue.length) } := by
  unfold nearFullTest
  dsimp only
  rw [raiseAll_ehu, nearFullStep_eq]
  rfl

/-- Settles O53. -/
theorem settingsTaken : Obligations.SettingsTaken := by
  refine ⟨fun s o lo hi w rest hm h => ?_, fun s w rest h => ?_, fun s w rest h => plain_taken h rfl, fun s b k w rest hk h => ?_,
    fun s w rest h => ?_, fun s w rest h => ?_, fun s w rest h => ?_, fun s w rest h => ?_⟩
  · simp only [plainTable, List.mem_cons, Prod.mk.injEq, List.not_mem_nil, or_false] at hm
    rcases hm with ⟨rfl, rfl, rfl⟩ | ⟨rfl, rfl, rfl⟩ | ⟨rfl, rfl, rfl⟩ | ⟨rfl, rfl, rfl⟩ | ⟨rfl, rfl, rfl⟩ | ⟨rfl, rfl, rfl⟩ |
      ⟨rfl, rfl, rfl⟩ <;>
    exact plain_taken h rfl
  · have ht := plain_taken (c := .editMode) h rfl
    rw [plainReport, editModeCode_editModeOf, Settings.takePlain, editModeOf_eq] at ht
    exact ht
  · have hc : (controlWordAt ((if b then 0x180 else 0x100) + 4 * k)).bind plainWord = some (.curve b k) := by
      rw [controlWordAt_curve hk]
      rfl
    have hn : plainNumber (.curve b k) w = min 32767 w.toNat := Nat.zero_max _
    have hr : plainReport ((if b then 0x180 else 0x100) + 4 * k) (.curve b k) w =
        clampReport ((if b then 0x180 else 0x100) + 4 * k) (plainNumber (.curve b k) w) w := rfl
    have ht := plain_taken h hc
    rw [hr, Settings.takePlain.eq_def, hn] at ht
    cases b <;> exact ht
  · have ha := Acts.guardBandWrite h rfl
    rw [takeGuardBand_eq] at ha
    have hf : Follows [.ehu] [] (guardSettled s rest w) (recomputeOnAir (guardSettled s rest w)) := ⟨writes_recomputeOnAir _, rfl⟩
    have he := hf.eventsTaken (by simp)
    rw [List.append_nil] at he
    refine ⟨_, exec_of_acts ha, hf.handoverTaken (by simp), hf.onlyChanges (by simp) (by simp), hf.set, he, ?_⟩
    have hw := writes_settled s rest (clampReport 0x00C (min 15 w.toNat) w) { s.sru.set with guardBand := min 15 w.toNat }
    rw [recomputeOnAir, State.withEhu_ehu, guardSettled, hw.ehu (by decide), hw.hlt (by decide), hw.sce (by decide), settled_set]
    rfl
  · have ha := Acts.nearFullThresholdWrite h rfl
    rw [takeNearFull_eq] at ha
    have hw := writes_settled s rest (clampReport 0x014 (max 1 (min 64 w.toNat)) w) { s.sru.set with nearFull := max 1 (min 64 w.toNat) }
    have hset : (nearSettled s rest w).sru.set = { s.sru.set with nearFull := max 1 (min 64 w.toNat) } := settled_set ..
    have hehu : (nearSettled s rest w).ehu = s.ehu := hw.ehu (by decide)
    have hf := follows_nearFullTest (nearSettled s rest w)
    rw [hset, hehu] at hf
    refine ⟨_, exec_of_acts ha, hf.handoverTaken (by simp), hf.onlyChanges (by simp) (by simp), hf.set, ?_, hf.eventsTaken (by simp)⟩
    rw [nearFullTest_ehu, hset, hehu]
  · have ha := Acts.attentionMaskWrite h rfl
    rw [takeMask] at ha
    dsimp only at ha
    rw [reported_settled s rest _ _ w (fun x => { x with mask := w.setWidth 12 })] at ha
    exact ⟨_, exec_of_acts ha, settled_taken ..⟩
  · have ha := Acts.interruptEnableWrite h rfl
    rw [takeIntEnable] at ha
    dsimp only at ha
    rw [reported_settled s rest _ _ w (fun x => { x with intEnable := flagOf w }), flagCode_flagOf] at ha
    exact ⟨_, exec_of_acts ha, settled_taken ..⟩

end Sys2Proof.Machine

/-! The route fields and the card rows that a hand-over brings (R144, R146, R161, R164, R181, R187). -/

namespace Sys2Proof.Machine

open Sys2Proof.Config

theorem clampReport_same {o n : Nat} {w : Word} (h : n = w.toNat) : clampReport o n w = [] := if_pos h

theorem clampReport_ne {o n : Nat} {w : Word} (h : n ≠ w.toNat) : clampReport o n w = [.settingClamped o (.ofNat 16 n) w] := if_neg h

/-! ## States in which a route has been taken -/

/-- The settings with the route of a head replaced (R144). -/
def Settings.withRoute (x : Settings) (h : Head) (r : Route) : Settings := { x with routes := x.routes.set h r }

section
variable (s : State) (rest : List Handover) (h : Head)

theorem takeRouteNumber_eq (o n : Nat) (w : Word) (put : Route → Route) : takeRouteNumber (afterHandover s rest) o h w n put =
    settled s rest (clampReport o n w) (s.sru.set.withRoute h (put (s.sru.set.routes.get h))) :=
  reported_settled s rest o n w (fun x => x.withRoute h (put (x.routes.get h)))

theorem settled_again (es : List Event) (c d : Settings) : withSettings (settled s rest es c) d = settled s rest es d := rfl

theorem settled_raise (es : List Event) (e : Event) (c d : Settings) :
    withSettings (raise (settled s rest es c) e) d = settled s rest (es ++ [e]) d := by
  rw [settled, settled, raiseAll, raiseAll, List.foldl_append]
  rfl

theorem settled_raise_route (es : List Event) (e : Event) (x : Settings) (r r' : Route) :
    withRoute (raise (settled s rest es (x.withRoute h r)) e) h r' = settled s rest (es ++ [e]) (x.withRoute h r') := by
  have hc : (raise (settled s rest es (x.withRoute h r)) e).sru.set = x.withRoute h r := settled_set s rest es _
  rw [Sys2Proof.Machine.withRoute, hc, settled_raise]
  refine congrArg (settled s rest _) ?_
  simp only [Settings.withRoute, Quad.set_set]

theorem put_settled (es : List Event) (r : Route) : (settled s rest es (s.sru.set.withRoute h r)).sru.set =
      { s.sru.set with routes := s.sru.set.routes.set h r } ∧
    eventsTaken es s (settled s rest es (s.sru.set.withRoute h r)) := by
  obtain ⟨-, -, hset, he⟩ := settled_taken s rest es (s.sru.set.withRoute h r)
  exact ⟨hset, he⟩

end

/-! ## The source (R146, R181) -/

theorem testOwnedElsewhere_iff (x : Settings) (h : Head) :
    testOwnedElsewhere x h = true ↔ ∃ k, k ≠ h ∧ (x.routes.get k).source = .test := by
  rw [testOwnedElsewhere, List.any_eq_true]
  refine exists_congr fun k => ?_
  have hk : k ∈ [Head.h0, .h1, .h2, .h3] := by cases k <;> simp
  simp [hk]

theorem sourceOf_low {w : Word} (h : w.toNat < 5) : sourceOf w = [Source.off, .live, .card1, .card2, .card3].getD w.toNat .off ∧
    sourceCode (sourceOf w) = w.toNat := by
  unfold sourceOf
  generalize w.toNat = n at h ⊢
  interval_cases n <;> exact ⟨rfl, rfl⟩

theorem sourceOf_high {w : Word} (h : 5 < w.toNat) : sourceOf w = .off := by
  unfold sourceOf
  split
  case h_6 => rfl
  all_goals omega

section
variable (s : State) (rest : List Handover) (h : Head)

theorem takeSource_demoted {w : Word} (o : Nat) (hw : w = 5) (ho : ∃ k, k ≠ h ∧ (s.sru.set.routes.get k).source = .test) :
    takeRoute (afterHandover s rest) o h .source w =
      settled s rest [.routeDemoted h w] (s.sru.set.withRoute h { s.sru.set.routes.get h with source := .off }) := by
  subst hw
  exact if_pos ⟨rfl, (testOwnedElsewhere_iff _ _).mpr ho⟩

theorem takeSource_owned {w : Word} (o : Nat) (hw : w = 5) (ho : ¬∃ k, k ≠ h ∧ (s.sru.set.routes.get k).source = .test) :
    takeRoute (afterHandover s rest) o h .source w =
      settled s rest [] (s.sru.set.withRoute h { s.sru.set.routes.get h with source := .test }) := by
  subst hw
  have hn : ¬(sourceOf 5 = .test ∧ testOwnedElsewhere (afterHandover s rest).sru.set h = true) :=
    fun hc => ho ((testOwnedElsewhere_iff _ _).mp hc.2)
  exact (if_neg hn).trans (takeRouteNumber_eq s rest h o 5 5 _)

theorem takeSource_other {w : Word} (o : Nat) (hw : w.toNat ≠ 5) : takeRoute (afterHandover s rest) o h .source w =
    settled s rest (clampReport o (sourceCode (sourceOf w)) w)
      (s.sru.set.withRoute h { s.sru.set.routes.get h with source := sourceOf w }) := by
  have hn : ¬(sourceOf w = .test ∧ testOwnedElsewhere (afterHandover s rest).sru.set h = true) := by
    rintro ⟨hs, -⟩
    rcases Nat.lt_or_gt_of_ne hw with hlt | hgt
    · have hc := (sourceOf_low hlt).2
      rw [hs] at hc
      exact hw hc.symm
    · rw [sourceOf_high hgt] at hs
      cases hs
  exact (if_neg hn).trans (takeRouteNumber_eq s rest h o _ w _)

theorem takeSource_low {w : Word} (o : Nat) (hw : w.toNat < 5) : takeRoute (afterHandover s rest) o h .source w =
    settled s rest [] (s.sru.set.withRoute h { s.sru.set.routes.get h with
      source := [Source.off, .live, .card1, .card2, .card3].getD w.toNat .off }) := by
  obtain ⟨hsource, hcode⟩ := sourceOf_low hw
  rw [takeSource_other s rest h o (by omega), clampReport_same hcode, hsource]

theorem takeSource_high {w : Word} (o : Nat) (hw : 5 < w.toNat) : takeRoute (afterHandover s rest) o h .source w =
    settled s rest [.settingClamped o 0 w] (s.sru.set.withRoute h { s.sru.set.routes.get h with source := .off }) := by
  have hne : sourceCode .off ≠ w.toNat := by
    show 0 ≠ _
    omega
  rw [takeSource_other s rest h o (by omega), sourceOf_high hw, clampReport_ne hne]
  rfl

/-! ## The other fields (R144, R164) -/

/-- The route with a row count taken (R144). -/
def rowsTaken (w : Word) : Route := { s.sru.set.routes.get h with rows := max 4 (min 32 w.toNat) }

theorem takeRows_eq (o : Nat) (w : Word) : takeRoute (afterHandover s rest) o h .rows w =
    if max 4 (min 32 w.toNat) - 1 < (s.sru.set.routes.get h).readRow then
      settled s rest (clampReport o (max 4 (min 32 w.toNat)) w ++ [.settingClamped (routeOffset h .readRow)
          (.ofNat 16 (max 4 (min 32 w.toNat) - 1)) (readWord s.mem (routeOffset h .readRow / 4))])
        (s.sru.set.withRoute h { rowsTaken s h w with readRow := max 4 (min 32 w.toNat) - 1 })
    else settled s rest (clampReport o (max 4 (min 32 w.toNat)) w) (s.sru.set.withRoute h (rowsTaken s h w)) := by
  have hs : takeRouteNumber (afterHandover s rest) o h w (max 4 (min 32 w.toNat)) (fun r => { r with rows := max 4 (min 32 w.toNat) }) =
      settled s rest (clampReport o (max 4 (min 32 w.toNat)) w) (s.sru.set.withRoute h (rowsTaken s h w)) := takeRouteNumber_eq ..
  have hr : (settled s rest (clampReport o (max 4 (min 32 w.toNat)) w) (s.sru.set.withRoute h (rowsTaken s h w))).sru.set.routes.get h =
      rowsTaken s h w := by
    rw [settled_set]
    exact Quad.get_set ..
  have hm : (settled s rest (clampReport o (max 4 (min 32 w.toNat)) w) (s.sru.set.withRoute h (rowsTaken s h w))).mem = s.mem :=
    (writes_settled ..).mem (by decide)
  unfold takeRoute takeRows clamp
  dsimp only
  rw [hs, hr, hm]
  refine if_congr Iff.rfl ?_ rfl
  exact settled_raise_route ..

theorem takeInject_eq (o : Nat) (w : Word) : takeRoute (afterHandover s rest) o h .inject w =
    settled s rest (clampReport o (min 255 w.toNat) w)
      { s.sru.set.withRoute h { s.sru.set.routes.get h with inject := min 255 w.toNat } with
        injectWritten := s.sru.set.injectWritten.set h true } := by
  have hn : clamp 0 255 w.toNat = min 255 w.toNat := Nat.zero_max _
  have hs := takeRouteNumber_eq s rest h o (min 255 w.toNat) w (fun r => { r with inject := min 255 w.toNat })
  unfold takeRoute
  dsimp only
  rw [hn, hs, settled_set, settled_again]
  rfl

end

theorem controlWordAt_routeOffset (h : Head) (f : RouteField) : controlWordAt (routeOffset h f) = some (.route h f) := by
  cases h <;> cases f <;> rfl

/-- Settles O54. -/
theorem routesTaken : Obligations.RoutesTaken := by
  refine ⟨fun s h f w rest hh => ?_, fun s c r rest hh => ?_⟩
  · intro x o owned put
    have ha := Acts.routeWrite hh (controlWordAt_routeOffset h f)
    have hw : Writes [.ptp, .sru] s (takeRoute (afterHandover s rest) o h f w) :=
      ((Writes.refl _ s).withPtp _ (by decide)).step (writes_takeRoute ..) (by decide)
    have of_eq {r : Route} {es : List Event}
        (he : takeRoute (afterHandover s rest) o h f w = settled s rest es (s.sru.set.withRoute h r)) :
        put s (takeRoute (afterHandover s rest) o h f w) r es := he ▸ put_settled s rest h es r
    refine ⟨_, exec_of_acts ha, (writes_takeRoute (afterHandover s rest) o h f w).ptp (by decide), hw.onlyChanges (.inl (by decide)),
      ?_, ?_, ?_, ?_, ?_, ?_, ?_, ?_, ?_, ?_⟩
    · rintro rfl hw5 ho
      exact of_eq (takeSource_demoted s rest h o hw5 ho)
    · rintro rfl hw5 ho
      exact of_eq (takeSource_owned s rest h o hw5 ho)
    · rintro rfl hlt
      exact of_eq (takeSource_low s rest h o hlt)
    · rintro rfl hgt
      exact of_eq (takeSource_high s rest h o hgt)
    · rintro rfl
      refine ⟨fun hle => of_eq ?_, fun hlt => of_eq ?_⟩
      · rw [takeRows_eq, if_neg (by exact Nat.not_lt.mpr hle)]
        rfl
      · rw [takeRows_eq, if_pos (by exact hlt)]
        rfl
    · rintro rfl
      have hn : clamp 0 (x.rows - 1) w.toNat = min (x.rows - 1) w.toNat := Nat.zero_max _
      exact of_eq (hn ▸ takeRouteNumber_eq s rest h o (clamp 0 (x.rows - 1) w.toNat) w
        (fun r => { r with readRow := clamp 0 (x.rows - 1) w.toNat }))
    · rintro rfl
      exact of_eq (takeRouteNumber_eq s rest h o _ w (fun r => { r with budget := max 256 (min 16384 w.toNat) }))
    · rintro rfl
      exact of_eq (takeRouteNumber_eq s rest h o _ w (fun r => { r with stall := max 2 (min 60 w.toNat) }))
    · rintro rfl
      exact of_eq (flagCode_flagOf w ▸ takeRouteNumber_eq s rest h o (flagCode (flagOf w)) w (fun r => { r with mirror := flagOf w }))
    · rintro rfl
      obtain ⟨-, -, hset, he⟩ := settled_taken s rest (clampReport o (min 255 w.toNat) w)
        { s.sru.set.withRoute h { s.sru.set.routes.get h with inject := min 255 w.toNat } with
          injectWritten := s.sru.set.injectWritten.set h true }
      rw [takeInject_eq]
      exact ⟨hset, he⟩
  · have ha := Acts.cardWrite hh
    have hw : Writes [.ptp, .hlt] s (cardStale (afterHandover s rest) c r) :=
      ((Writes.refl _ s).withPtp _ (by decide)).step (writes_cardStale ..) (by decide)
    refine ⟨_, exec_of_acts ha, rfl, hw.onlyChanges (.inr rfl), fun h => ?_⟩
    have hg : (cardStale (afterHandover s rest) c r).hlt.get h = if cardOf (s.hlt.get h).route.source = some c
      then { s.hlt.get h with view := markPosition (s.hlt.get h).view false r } else s.hlt.get h := by
      cases h <;> rfl
    rw [hg]
    refine ⟨fun hc => ?_, fun hc => if_neg hc⟩
    rw [if_pos hc]
    refine ⟨rfl, List.length_modify .., fun v hv => ?_, fun p hp => ?_⟩
    · simp [markPosition, hv]
    · simp [markPosition, Ne.symm hp]

end Sys2Proof.Machine

/-! A run reset: HELM's share of it, its start, and its end (R21, R43, R71, R124, R167, R189 to R191). -/

namespace Sys2Proof.Machine

open Sys2Proof.Config

/-! ## HELM's share (R124) -/

/-- HELM with no one holding it and no one waiting (R124). -/
def Helm.freedAll (x : Helm) : Helm :=
  { x with holder := none, stack := [], waiting := [], paused := false, coast := false, cleared := false }

/-- The event of a helm freed by a run reset (R117, R184). -/
def freedEvents (x : Helm) : List Event := match x.holder with | some h => [.helmChange (some h) none .runReset] | none => []

/-- HELM freed, and the staged settings in use (R121, R124). -/
def helmCleared (s : State) : State := putStaged (putStaged (s.withHelm s.helm.freedAll) .operator) .presenter

theorem helmRunReset_eq (s : State) : helmRunReset s = raiseAll (helmCleared s) (freedEvents s.helm) := by
  unfold helmRunReset freedEvents
  dsimp only
  cases s.helm.holder <;> rfl

theorem putStaged_helm {s : State} (l : Link) (hs : s.helm.stack = []) (hw : s.helm.waiting = []) : (putStaged s l).helm =
    { s.helm with
      inUse := (putStaged s l).helm.inUse, staged := s.helm.staged.set l [], lastDeflection := (putStaged s l).helm.lastDeflection } := by
  have hu := (used_putStaged s l).helm
  rw [used_eq, used_stack_of_not_mem _ _ (by rw [stagingEmptied, State.withHelm_helm, hs]; simp),
    used_waiting_of_not_mem _ _ (by rw [stagingEmptied, State.withHelm_helm, hw]; simp)] at hu
  rw [hu]
  rfl

theorem helmCleared_helm (s : State) : (helmCleared s).helm = { s.helm.freedAll with
    inUse := (helmCleared s).helm.inUse, staged := ⟨[], []⟩, lastDeflection := (helmCleared s).helm.lastDeflection } := by
  have h1 := putStaged_helm (s := s.withHelm s.helm.freedAll) .operator rfl rfl
  have h2 := putStaged_helm (s := putStaged (s.withHelm s.helm.freedAll) .operator) .presenter (by rw [h1]; rfl) (by rw [h1]; rfl)
  rw [helmCleared, h2, h1]
  rfl

/-- After HELM's share every claimant is IDLE, the flags are clear and nothing is staged (R124). -/
theorem helmRunReset_clears (s : State) : (∀ c, claimState (helmRunReset s).helm c = .idle) ∧ (helmRunReset s).helm.paused = false ∧
    (helmRunReset s).helm.coast = false ∧ (helmRunReset s).helm.staged = ⟨[], []⟩ := by
  rw [helmRunReset_eq, raiseAll_helm, helmCleared_helm]
  exact ⟨fun c => by simp [claimState, Helm.freedAll], rfl, rfl, rfl⟩

theorem putStaged_nothing {s : State} {l : Link} (h : s.helm.staged.get l = []) : putStaged s l = s := by
  have he : stagingEmptied s l = s := by
    rw [stagingEmptied, ← h, Pair.set_get]
    rfl
  rw [putStaged, h]
  exact he

/-- With nothing staged, HELM's share does nothing else (R124). -/
theorem helmRunReset_quiet {s : State} (h : s.helm.staged = ⟨[], []⟩) :
    helmRunReset s = raiseAll (s.withHelm s.helm.freedAll) (freedEvents s.helm) := by
  have hst (l : Link) : (s.withHelm s.helm.freedAll).helm.staged.get l = [] := by
    show s.helm.staged.get l = []
    rw [h]
    cases l <;> rfl
  rw [helmRunReset_eq, helmCleared, putStaged_nothing (hst .operator), putStaged_nothing (hst .presenter)]

/-! ## The start (R189, R190) -/

theorem orphanOf_port (s : State) (r : Requester) : (orphanOf s r).port = { s.port with
    busy := s.port.busy.map (fun a => if a.owner = .part r then { a with orphan := true } else a) } := by
  unfold orphanOf holdsPort
  cases hb : s.port.busy with
  | none => rw [if_neg (by simp), Option.map_none, ← hb]
  | some a =>
    by_cases ho : a.owner = .part r
    · rw [if_pos (by simpa using ho), State.withPort_port, Option.map_some, Option.map_some, if_pos ho]
    · rw [if_neg (by simpa using ho), Option.map_some, if_neg ho, ← hb]

/-- The SRU at the start of a run reset (R190). -/
def Sru.starting (x : Sru) (n : Nat) (zero : Bool) : Sru := { x with runState := .running, resetLeft := n, zeroDue := zero }

theorem acceptAll_starting (x : Sru) (n : Nat) (zero : Bool) (t : State) (es : List Event) :
    acceptAll (x.starting n zero) t es = (acceptAll x t es).starting n zero := by
  unfold acceptAll
  induction es generalizing x with
  | nil => rfl
  | cons e rest ih => exact ih (x.accept e t.ftu.frame t.ftu.tick)

theorem blockShares_sru (s : State) : (blockShares s).sru = s.sru.starting s.ehu.queue.length false := rfl

section
variable {s : State}

theorem afterShares_late (s : State) (hd : s.ftu.due.sce = true) :
    afterShares s true = (blockShares s).withSru { (blockShares s).sru with helmShare := true } := if_pos (by rw [hd]; rfl)

theorem afterShares_now {late : Bool} (h : ¬(late = true ∧ s.ftu.due.sce = true)) : afterShares s late = helmRunReset (blockShares s) :=
  if_neg (by simpa using h)

/-- When HELM's share waits for the frame step, nothing more is done (R71). -/
theorem startRunReset_late (hd : s.ftu.due.sce = true) :
    startRunReset s true = (blockShares s).withSru { (blockShares s).sru with helmShare := true } := by
  rw [startRunReset_eq, afterShares_late s hd]
  exact if_neg (by simp [sharesDone])

theorem raised_helmRunReset (s : State) : Raised s.sru (helmRunReset s).sru := (writes_helmRunReset s).sru (by decide)

/-- With nothing held, every share is done at once; otherwise the releases are awaited (R190). -/
theorem startRunReset_now {late : Bool} (h : ¬(late = true ∧ s.ftu.due.sce = true)) (hs : s.sru.helmShare = false) :
    startRunReset s late =
      if s.ehu.queue = [] then finishRunReset (helmRunReset (blockShares s)) else helmRunReset (blockShares s) := by
  have hr := raised_helmRunReset (blockShares s)
  have hshare : (blockShares s).sru.helmShare = false := hs
  rw [startRunReset_eq, afterShares_now h]
  refine if_congr ?_ rfl rfl
  rw [sharesDone, hr.runState, hr.resetLeft, hr.helmShare, hr.zeroDue, hshare, blockShares_sru]
  simp [Sru.starting]

end

/-- What a run reset's start does to the blocks, whether HELM's share is late or not (R21, R43, R71, R167). -/
theorem startRunReset_blocks (s : State) (late : Bool) :
    (startRunReset s late).sce = s.sce.runReset ∧ (startRunReset s late).port = (orphanOf s .rwk).port ∧
      (startRunReset s late).rwk = s.rwk.runReset ∧ (startRunReset s late).ehu = s.ehu.runReset ∧
      (startRunReset s late).hlt = s.hlt.map Hlt.fullStale := by
  have hw := writes_startRunReset_shares s late
  exact ⟨hw.sce (by decide), hw.port (by decide), hw.rwk (by decide), hw.ehu (by decide), hw.hlt (by decide)⟩

/-! ## The late share (R71) -/

/-- The state with the mark that HELM's share waits set or clear. -/
def shareMarked (s : State) (b : Bool) : State := s.withSru { s.sru with helmShare := b }

theorem raiseAll_shareMarked (s : State) (b : Bool) (es : List Event) :
    raiseAll (shareMarked s b) es = shareMarked (raiseAll s es) b := by
  induction es generalizing s with
  | nil => rfl
  | cons e rest ih => exact ih (raise s e)

theorem installMap_shareMarked (s : State) (b : Bool) : installMap (shareMarked s b) = shareMarked (installMap s) b :=
  congrArg recomputeOnAir (raiseAll_shareMarked
    ((s.withSce (s.sce.install s.rwk.bank).1).withRwk (s.rwk.installed s.sce.active)) b (s.sce.install s.rwk.bank).2)

theorem afterInstall_shareMarked (s : State) (b : Bool) : afterInstall (shareMarked s b) = shareMarked (afterInstall s) b := by
  unfold afterInstall
  split
  · next h =>
    rw [if_pos (by exact h)]
    exact installMap_shareMarked (s.withSce (s.sce.load s.sru.set)) b
  · next h =>
    rw [if_neg (by exact h)]
    rfl

/-- The frame step does not look at the mark (R71). -/
theorem frameStep_shareMarked (s : State) (b : Bool) : frameStep (shareMarked s b) = shareMarked (frameStep s) b := by
  rw [frameStep_eq, frameStep_eq, afterInstall_shareMarked]
  split
  · next h =>
    rw [if_pos (by exact h)]
    rfl
  · next h =>
    rw [if_neg (by exact h)]
    exact raiseAll_shareMarked (((afterInstall s).withSce ((afterInstall s).sce.step
      (helmTargetWith s.sce.speedLimit (afterInstall s))).1).withHelm ((afterInstall s).helm.stepTaken _)) b _

theorem acceptAll_share (x : Sru) (b : Bool) (t : State) (es : List Event) :
    acceptAll { x with helmShare := b } t es = { acceptAll x t es with helmShare := b } := by
  unfold acceptAll
  induction es generalizing x with
  | nil => rfl
  | cons e rest ih => exact ih (x.accept e t.ftu.frame t.ftu.tick)

theorem follows_afterInstall (s : State) : ∃ es, Follows [.sce, .rwk, .ehu] es s (afterInstall s) := by
  unfold afterInstall
  split
  · refine ⟨(((s.withSce (s.sce.load s.sru.set)).sce.install s.rwk.bank).2), ((Writes.refl _ s).withSce _ (by decide)).step
      (writes_installMap _) (by decide), ?_⟩
    exact (raiseAll_sru ..).trans (acceptAll_congr (raiseAll_ftu ..).symm ..)
  · exact ⟨[], (Writes.refl _ s).withSce _ (by decide), rfl⟩

theorem follows_frameStep (s : State) : ∃ es, Follows [.sce, .rwk, .ehu, .helm] es s (frameStep s) := by
  obtain ⟨es, hi⟩ := follows_afterInstall s
  have hw : Writes [.sce, .rwk, .ehu, .helm] s (afterInstall s) := hi.frame.mono (by decide)
  rw [frameStep_eq]
  split
  · exact ⟨es, (hw.withSce _ (by decide)).withHelm _ (by decide), hi.sru⟩
  · refine ⟨es ++ ((afterInstall s).sce.step (helmTargetWith s.sce.speedLimit (afterInstall s))).2.1,
      ((hw.withSce _ (by decide)).withHelm _ (by decide)).raiseAll _, ?_⟩
    rw [raiseAll_sru, acceptAll_append, acceptAll_congr (raiseAll_ftu ..), acceptAll_congr (raiseAll_ftu ..)]
    exact congrArg (acceptAll · _ _) hi.sru

end Sys2Proof.Machine

/-! The statement on the run reset (R21, R43, R71, R124, R167, R189 to R191). -/

namespace Sys2Proof.Machine

open Sys2Proof.Config

section
variable {s : State} {rest : List Handover} {late : Bool}

theorem writes_started (s : State) (rest : List Handover) (late : Bool) :
    Writes [.ptp, .port, .rwk, .ehu, .sce, .hlt, .helm, .hlr, .sru] s (startRunReset (afterHandover s rest) late) :=
  ((Writes.refl _ s).withPtp _ (by decide)).step (writes_startRunReset ..) (by decide)

theorem blockShares_ftu (s : State) : (blockShares s).ftu = s.ftu := (writes_blockShares s).ftu (by decide)
theorem blockShares_helm (s : State) : (blockShares s).helm = s.helm := (writes_blockShares s).helm (by decide)
theorem blockShares_hlr (s : State) : (blockShares s).hlr = s.hlr := (writes_blockShares s).hlr (by decide)

/-- With nothing staged, HELM's share frees the helm and does nothing else (R124, R190). -/
theorem shared_quiet (hq : s.helm.staged = ⟨[], []⟩) :
    (helmRunReset (blockShares s)).hlr = s.hlr ∧ (helmRunReset (blockShares s)).helm = s.helm.freedAll ∧
      (helmRunReset (blockShares s)).sru = (acceptAll s.sru s (freedEvents s.helm)).starting s.ehu.queue.length false := by
  have hquiet := helmRunReset_quiet (s := blockShares s) (by rw [blockShares_helm, hq])
  rw [blockShares_helm] at hquiet
  rw [hquiet, raiseAll_hlr, raiseAll_helm, raiseAll_sru]
  refine ⟨blockShares_hlr s, rfl, ?_⟩
  exact (acceptAll_congr (by exact blockShares_ftu s) ..).trans (acceptAll_starting ..)

/-- The SRU after a run reset's start that has HELM's share in it, with nothing staged (R43, R190). -/
theorem started_quiet (h : ¬(late = true ∧ s.ftu.due.sce = true)) (hs : s.sru.helmShare = false) (hq : s.helm.staged = ⟨[], []⟩) :
    (startRunReset s late).hlr = s.hlr ∧ (startRunReset s late).helm = s.helm.freedAll ∧ (startRunReset s late).sru =
      (acceptAll s.sru s (freedEvents s.helm ++ if s.ehu.queue = [] then [.reset .run] else [])).starting s.ehu.queue.length
        s.ehu.queue.isEmpty := by
  obtain ⟨hhlr, hhelm, hsru⟩ := shared_quiet hq
  have hftu : (helmRunReset (blockShares s)).ftu = s.ftu :=
    ((writes_helmRunReset _).ftu (by decide)).trans (blockShares_ftu s)
  rw [startRunReset_now h hs]
  by_cases he : s.ehu.queue = []
  · rw [if_pos he, if_pos he, acceptAll_append, he]
    refine ⟨hhlr, hhelm, ?_⟩
    rw [finishRunReset, State.withSru_sru, raise_sru, hsru, hftu, he]
    rfl
  · rw [if_neg he, if_neg he, List.append_nil, List.isEmpty_eq_false_iff.mpr he]
    exact ⟨hhlr, hhelm, hsru⟩

/-- What a run reset's start leaves at the SRU (R190). -/
theorem started_sru (hs : s.sru.helmShare = false) :
    (startRunReset s late).sru.runState = .running ∧ (startRunReset s late).sru.resetLeft = s.ehu.queue.length ∧
      ((startRunReset s late).sru.zeroDue = true ↔ s.ehu.queue = [] ∧ ¬(late = true ∧ s.ftu.due.sce = true)) := by
  by_cases h : late = true ∧ s.ftu.due.sce = true
  · obtain ⟨rfl, hd⟩ := h
    rw [startRunReset_late hd]
    refine ⟨rfl, rfl, ?_⟩
    simp [blockShares_sru, Sru.starting, hd]
  · have hr := raised_helmRunReset (blockShares s)
    rw [startRunReset_now h hs]
    by_cases he : s.ehu.queue = []
    · rw [if_pos he]
      exact ⟨hr.runState, hr.resetLeft, by simp [finishRunReset, he, h]⟩
    · rw [if_neg he]
      refine ⟨hr.runState, hr.resetLeft, ?_⟩
      rw [hr.zeroDue]
      simp [blockShares_sru, Sru.starting, he]

theorem started_clears (h : ¬(late = true ∧ s.ftu.due.sce = true)) (hs : s.sru.helmShare = false) :
    (∀ c, claimState (startRunReset s late).helm c = .idle) ∧ (startRunReset s late).helm.paused = false ∧
      (startRunReset s late).helm.coast = false ∧ (startRunReset s late).helm.staged = ⟨[], []⟩ := by
  rw [startRunReset_now h hs]
  split
  all_goals exact helmRunReset_clears _

/-! ## A share that comes late (R71) -/

/-- The frame step's state, in which HELM's share still waits (R71). -/
def shareWaiting (s : State) : State := frameStep (stepTaking s)

/-- The state when HELM's late share has been taken (R71). -/
def shareTaken (s : State) : State := shareMarked (helmRunReset (shareWaiting s)) false

theorem shareWaiting_helmShare (s : State) : (shareWaiting s).sru.helmShare = s.sru.helmShare :=
  ((writes_frameStep (stepTaking s)).sru (by decide)).helmShare

theorem acts_late (hshare : s.sru.helmShare = true) (hsce : s.ftu.due.sce = true) (hhelm : s.ftu.due.helm = false)
    (hehu : s.ftu.due.ehu = false) : Acts s .frameStep false (shareTaken s) := by
  have ha := Acts.frameStep hsce hhelm hehu
  have ht : takeLateShare (shareWaiting s) = shareTaken s := if_pos ((shareWaiting_helmShare s).trans hshare)
  exact ht ▸ ha

theorem acts_unshared (hsce : s.ftu.due.sce = true) (hhelm : s.ftu.due.helm = false) (hehu : s.ftu.due.ehu = false) :
    Acts (shareMarked s false) .frameStep false (shareMarked (shareWaiting s) false) := by
  have ha := Acts.frameStep (s := shareMarked s false) hsce hhelm hehu
  have hm : frameStep (stepTaking (shareMarked s false)) = shareMarked (shareWaiting s) false := frameStep_shareMarked (stepTaking s) false
  have ht : takeLateShare (frameStep (stepTaking (shareMarked s false))) = shareMarked (shareWaiting s) false := by
    rw [hm]
    exact if_neg (by simp [shareMarked])
  exact ht ▸ ha

theorem follows_shareWaiting (s : State) : ∃ es, Follows [.sce, .ftu, .rwk, .ehu, .helm] es s (shareWaiting s) := by
  obtain ⟨es, hf⟩ := follows_frameStep (stepTaking s)
  exact ⟨es, ((writes_withFtu s _).mono (by decide)).step hf.frame (by decide), hf.sru⟩

/-- With the mark clear, the frame step does the same (R71). -/
theorem Follows.unshared {es : List Event} (h : Follows [.sce, .ftu, .rwk, .ehu, .helm] es s (shareWaiting s)) :
    Follows [.sce, .ftu, .rwk, .ehu, .helm] es (shareMarked s false) (shareMarked (shareWaiting s) false) := by
  have hm : shareWaiting (shareMarked s false) = shareMarked (shareWaiting s) false := frameStep_shareMarked (stepTaking s) false
  obtain ⟨_, hf⟩ := follows_shareWaiting (shareMarked s false)
  rw [hm] at hf
  refine ⟨hf.frame, ?_⟩
  rw [shareMarked, State.withSru_sru, h.sru]
  exact (acceptAll_share ..).symm

theorem writes_shareTaken (s : State) : Writes [.sce, .ftu, .rwk, .ehu, .helm, .hlr, .sru] s (shareTaken s) := by
  obtain ⟨es, hf⟩ := follows_shareWaiting s
  exact ((hf.frame.mono (by decide)).step (writes_helmRunReset _) (by decide)).withSru _ (by decide)

theorem shareWaiting_helm (s : State) : ∃ stop, (shareWaiting s).helm = s.helm.stepTaken stop := frameStep_helm (stepTaking s)

theorem shareWaiting_hlr (s : State) : (shareWaiting s).hlr = s.hlr := (writes_frameStep (stepTaking s)).hlr (by decide)

/-- With nothing staged, the late share frees the helm and does nothing else (R71, R124). -/
theorem shareTaken_quiet (hq : s.helm.staged = ⟨[], []⟩) :
    (shareTaken s).hlr = s.hlr ∧ (shareTaken s).helm = (shareWaiting s).helm.freedAll ∧
      (shareTaken s).sru = { acceptAll (shareWaiting s).sru (shareWaiting s) (freedEvents s.helm) with helmShare := false } := by
  obtain ⟨stop, hh⟩ := shareWaiting_helm s
  have hquiet := helmRunReset_quiet (s := shareWaiting s) (by rw [hh]; exact hq)
  have hfreed : freedEvents (shareWaiting s).helm = freedEvents s.helm := by
    rw [hh]
    rfl
  rw [hfreed] at hquiet
  rw [shareTaken, hquiet]
  refine ⟨?_, ?_, ?_⟩
  · rw [shareMarked, State.withSru_hlr, raiseAll_hlr]
    exact shareWaiting_hlr s
  · rw [shareMarked, State.withSru_helm, raiseAll_helm]
    rfl
  · rw [shareMarked, State.withSru_sru, raiseAll_sru]
    rfl

end

/-- Settles O58. -/
theorem runResetShares : Obligations.RunResetShares := by
  refine ⟨fun s late w rest hh hw => ?_, fun s late rest hok hh hidle => ?_, fun s hshare hsce hhelm hehu => ?_, fun s hrun hleft hshare hz => ?_,
    fun s h => ?_⟩
  · have hn : ¬(w = 1 ∧ s.sru.runState = .idle) := by
      rintro ⟨rfl, hi⟩
      rcases hw with hw | hw
      · exact hw rfl
      · rw [hw] at hi
        cases hi
    exact ⟨_, exec_of_acts (.runResetIgnored hh rfl hn), (writes_afterHandover s rest).onlyChanges (.inr rfl), rfl⟩
  · intro later freed
    have hs : s.sru.helmShare = false := (hok.1 hidle).1
    obtain ⟨hsce, hport, hrwk, hehu, hhlt⟩ := startRunReset_blocks (afterHandover s rest) late
    obtain ⟨hrun, hleft, hzero⟩ := started_sru (s := afterHandover s rest) (late := late) hs
    have ha := Acts.runReset (late := late) hh rfl ⟨rfl, hidle⟩
    refine ⟨_, exec_of_acts ha, (writes_startRunReset ..).ptp (by decide), (writes_started s rest late).onlyChanges (.inl (by simp)),
      hsce, hport.trans (orphanOf_port ..), hrwk, hehu, fun h => ?_, hrun, hleft, startRunReset_set _ late, hzero,
      fun hl => ?_, fun hn => started_clears (s := afterHandover s rest) hn hs, fun hn hq => ?_⟩
    · rw [hhlt]
      cases h <;> rfl
    · obtain ⟨rfl, hd⟩ := hl
      rw [startRunReset_late (s := afterHandover s rest) hd]
      exact ⟨blockShares_helm _, blockShares_hlr _, rfl⟩
    · obtain ⟨hhlr, hhelm, hsru⟩ := started_quiet (s := afterHandover s rest) hn hs hq
      refine ⟨hhlr, hhelm, sruIs_of_eq ?_⟩
      rw [acceptAll_congr (t := s) ((writes_startRunReset (afterHandover s rest) late).ftu (by decide))]
      exact hsru
  · intro before freed
    obtain ⟨es, hf⟩ := follows_shareWaiting s
    have hu := hf.unshared
    have hw := writes_helmRunReset (shareWaiting s)
    obtain ⟨hidle, hpaused, hcoast, hstaged⟩ := helmRunReset_clears (shareWaiting s)
    refine ⟨_, _, es, exec_of_acts (acts_late hshare hsce hhelm hehu), exec_of_acts (acts_unshared hsce hhelm hehu), ?_⟩
    rw [finish, if_neg (by simp), finish, if_neg (by simp)]
    simp only [arbitrate_sce, arbitrate_ftu, arbitrate_rwk, arbitrate_ehu, arbitrate_helm, arbitrate_hlr, arbitrate_sru_set,
      arbitrate_sru_helmShare]
    refine ⟨?_, ?_, hw.sce (by decide), hw.ftu (by decide), hw.rwk (by decide), hw.ehu (by decide), rfl, ?_, hidle, hpaused, hcoast,
      hstaged, fun hq => ?_⟩
    · exact hu.frame.onlyRaises_arbitrate hu.sru
    · exact ((writes_shareTaken s)).onlyChanges_arbitrate (.inl (by simp))
    · exact (hw.set (by decide)).trans (hf.frame.set (by decide))
    · obtain ⟨hhlr, hhelm', hsru⟩ := shareTaken_quiet hq
      refine ⟨hhlr, hhelm', ?_⟩
      have hftu : (arbitrate (shareTaken s)).ftu = (shareWaiting s).ftu := (arbitrate_ftu _).trans (hw.ftu (by decide))
      rw [acceptAll_congr hftu, acceptAll_append, ← hf.sru]
      exact sruIs_congr (arbitrate_sruIs _) (by rw [hsru]; rfl)
  · have ha := Acts.runResetDone (s := s) (by simp [sharesDone, hrun, hleft, hshare, hz])
    refine ⟨_, exec_of_acts ha, ?_, ?_⟩
    · exact (writes_finishRunReset s).onlyChanges_arbitrate (.inl (by simp))
    · refine sruIs_congr (arbitrate_sruIs _) ?_
      rw [acceptAll_congr (t := s) (by rw [finish, if_neg (by simp), arbitrate_ftu]; rfl)]
      rfl
  · have hn : sharesDone s = false := by
      rcases h with h | h | h <;> simp [sharesDone, h]
    simp [exec, execRunResetDone, hn]

end Sys2Proof.Machine

/-! The rows in centre-out order, and the on-air list (R29, R30, R41). -/

namespace Sys2Proof.Machine

open Sys2Proof.Config

/-! ## Centre-out order (R29, R152) -/

/-- The place of a number in the centre-out order (R29). -/
def centreDistance (c i : Nat) : Nat := if c < i then 2 * (i - c) - 1 else 2 * (c - i)

/-- The numbers at one distance from the centre (R29). -/
def centreRing (c lo hi d : Nat) : List Nat :=
  if d = 0 then (if lo ≤ c ∧ c ≤ hi then [c] else [])
  else (if lo ≤ c + d ∧ c + d ≤ hi then [c + d] else []) ++ (if d ≤ c ∧ lo ≤ c - d ∧ c - d ≤ hi then [c - d] else [])

theorem centreOut_eq (c lo hi : Nat) : centreOut c lo hi = (List.range (hi + 1 - lo)).flatMap (centreRing c lo hi) := rfl

theorem mem_centreRing {c lo hi d i : Nat} : i ∈ centreRing c lo hi d ↔ lo ≤ i ∧ i ≤ hi ∧ (i = c + d ∨ i + d = c) := by
  unfold centreRing
  split
  · next h =>
    subst h
    split <;> simp <;> omega
  · rw [List.mem_append]
    split <;> split <;> simp <;> omega

theorem mem_centreOut {c lo hi i : Nat} (hl : lo ≤ c) (hh : c ≤ hi) : i ∈ centreOut c lo hi ↔ lo ≤ i ∧ i ≤ hi := by
  rw [centreOut_eq, List.mem_flatMap]
  constructor
  · rintro ⟨d, -, hd⟩
    obtain ⟨h1, h2, -⟩ := mem_centreRing.mp hd
    exact ⟨h1, h2⟩
  · rintro ⟨h1, h2⟩
    refine ⟨if c ≤ i then i - c else c - i, List.mem_range.mpr ?_, mem_centreRing.mpr ⟨h1, h2, ?_⟩⟩ <;> split <;> omega

theorem centreDistance_ring {c lo hi d i : Nat} (h : i ∈ centreRing c lo hi d) :
    2 * d - 1 ≤ centreDistance c i ∧ centreDistance c i ≤ 2 * d := by
  obtain ⟨-, -, h⟩ := mem_centreRing.mp h
  unfold centreDistance
  split <;> omega

theorem pairwise_centreRing (c lo hi d : Nat) :
    (centreRing c lo hi d).Pairwise (fun i j => centreDistance c i < centreDistance c j) := by
  unfold centreRing
  split
  · split <;> simp
  · next hd =>
    have hlt (h : d ≤ c) : centreDistance c (c + d) < centreDistance c (c - d) := by
      unfold centreDistance
      split <;> split <;> omega
    split <;> split
    · next h => simpa using hlt h.1
    all_goals simp

/-- The order goes out from the centre, the number after it before the one before it (R29, R152). -/
theorem pairwise_centreOut (c lo hi : Nat) :
    (centreOut c lo hi).Pairwise (fun i j => centreDistance c i < centreDistance c j) := by
  rw [centreOut_eq, List.pairwise_flatMap]
  refine ⟨fun d _ => pairwise_centreRing c lo hi d, List.pairwise_lt_range.imp fun {d e} hde i hi' j hj => ?_⟩
  have hid := (centreDistance_ring hi').2
  have hjd := (centreDistance_ring hj).1
  omega

/-! ## The on-air list (R29) -/

theorem foldl_max_from {l : List Nat} {m : Nat} (hle : ∀ n ∈ l, n ≤ m) {a : Nat} (ha : a ≤ m) (hm : a = m ∨ m ∈ l) :
    l.foldl max a = m := by
  induction l generalizing a with
  | nil => simpa using hm
  | cons n rest ih =>
    rw [List.forall_mem_cons] at hle
    refine ih hle.2 (max_le ha hle.1) ?_
    rw [List.mem_cons] at hm
    rcases hm with rfl | rfl | hm
    exacts [.inl (max_eq_left hle.1), .inl (max_eq_right ha), .inr hm]

theorem foldl_max_eq {l : List Nat} {m : Nat} (hle : ∀ n ∈ l, n ≤ m) (hm : m ∈ l) : l.foldl max 0 = m :=
  foldl_max_from hle (Nat.zero_le m) (.inr hm)

theorem mem_liveRoutes (q : Quad Hlt) (r : Route) : r ∈ liveRoutes q ↔ ∃ h : Head, r = (q.get h).route ∧ r.source = .live := by
  unfold liveRoutes
  simp only [List.map_cons, List.map_nil, List.mem_filter, List.mem_cons, List.not_mem_nil, or_false, beq_iff_eq]
  constructor
  · rintro ⟨h | h | h | h, hs⟩
    exacts [⟨.h0, h, hs⟩, ⟨.h1, h, hs⟩, ⟨.h2, h, hs⟩, ⟨.h3, h, hs⟩]
  · rintro ⟨h, hr, hs⟩
    refine ⟨?_, hs⟩
    cases h
    exacts [.inl hr, .inr (.inl hr), .inr (.inr (.inl hr)), .inr (.inr (.inr hr))]

theorem onList_iff {l : List OnAir} {slot : Nat} : onList l slot = true ↔ ∃ a ∈ l, a.slot = slot := by
  simp [onList]

/-- The list replaced, said with the entries' slots (R30, R41). -/
theorem recompute_eq (x : Ehu) (new : List OnAir) : x.recompute new = { x with
    onAir := new
    queue := x.queue.map (fun e =>
      if (∃ a ∈ x.onAir, a.slot = e.slot) ∧ ∀ a ∈ new, a.slot ≠ e.slot then { e with state := .releasing } else e) } := by
  have hiff (e : HoldEntry) : (onList x.onAir e.slot && !onList new e.slot) = true ↔
      (∃ a ∈ x.onAir, a.slot = e.slot) ∧ ∀ a ∈ new, a.slot ≠ e.slot := by
    rw [Bool.and_eq_true, onList_iff, Bool.not_eq_true', ← Bool.not_eq_true, onList_iff]
    push Not
    rfl
  simp only [Ehu.recompute, hiff]

theorem onAirList_empty {routes : List Route} {rows : List Row} (g row : Nat) (h : routes = [] ∨ rows = []) :
    onAirList routes g rows row = [] := by
  rcases h with rfl | rfl <;> simp [onAirList]

/-- The rows of the on-air list: those of the views, widened and cut to the map, in centre-out order (R29). -/
theorem onAirList_indices {routes : List Route} {g : Nat} {rows : List Row} {row above below : Nat} (hrow : row < rows.length)
    (hle : ∀ r ∈ routes, r.readRow ≤ above ∧ r.rows - r.readRow ≤ below) (ha : ∃ r ∈ routes, r.readRow = above)
    (hb : ∃ r ∈ routes, r.rows - r.readRow = below) :
    ∃ indices : List Nat, (∀ i, i ∈ indices ↔ row ≤ i + above + g ∧ i ≤ row + below + g ∧ i < rows.length) ∧
      indices.Pairwise (fun i j => centreDistance row i < centreDistance row j) ∧
      onAirList routes g rows row = (indices.take 63).filterMap (fun i => (rows[i]?).map (fun r => ⟨r.slot, r.entry⟩)) := by
  have habove : (routes.map (·.readRow)).foldl max 0 = above :=
    foldl_max_eq (by simpa using fun r hr => (hle r hr).1) (by simpa using ha)
  have hbelow : (routes.map (fun r => r.rows - r.readRow)).foldl max 0 = below :=
    foldl_max_eq (by simpa using fun r hr => (hle r hr).2) (by simpa using hb)
  have hne : (routes.isEmpty || rows.isEmpty) = false := by
    obtain ⟨r, hr, -⟩ := ha
    have h1 : routes ≠ [] := List.ne_nil_of_mem hr
    have h2 : rows ≠ [] := List.ne_nil_of_length_pos (by omega)
    simp [h1, h2]
  refine ⟨centreOut row (row - above - g) (min (row + below + g) (rows.length - 1)), fun i => ?_, pairwise_centreOut .., ?_⟩
  · rw [mem_centreOut (by omega) (by omega)]
    omega
  · rw [onAirList, if_neg (by simp [hne]), habove, hbelow]
    rfl

end Sys2Proof.Machine

/-! The releases of a boundary (R40). -/

namespace Sys2Proof.Machine

open Sys2Proof.Config

/-! ## Expiry of the held slots (R40) -/

/-- The event of a slot that expires, with the number of its HELD entries (R40). -/
def expiryEvent (x : Ehu) (slot : Nat) : Event :=
  .holdExpired slot (x.queue.countP (fun e => e.slot == slot && e.state == .held))

/-- The HELD entries of these slots put to release (R40). -/
def expireEntry (slots : List Nat) (e : HoldEntry) : HoldEntry :=
  if e.slot ∈ slots ∧ e.state = .held then { e with state := .releasing } else e

/-- The unit with the HELD entries of these slots put to release and the slots counted (R40). -/
def Ehu.expire (x : Ehu) (slots : List Nat) : Ehu :=
  { x with queue := x.queue.map (expireEntry slots), expiries := x.expiries + .ofNat 32 slots.length }

theorem Ehu.expire_nil (x : Ehu) : x.expire [] = x := by
  have hq : x.queue.map (expireEntry []) = x.queue := by
    rw [show expireEntry [] = id from funext fun e => if_neg (by simp), List.map_id]
  rw [Ehu.expire, hq]
  simp

theorem Ehu.expire_cons (x : Ehu) (slot : Nat) (slots : List Nat) : (x.expire [slot]).expire slots = x.expire (slot :: slots) := by
  have he (e : HoldEntry) : expireEntry slots (expireEntry [slot] e) = expireEntry (slot :: slots) e := by
    unfold expireEntry
    by_cases h1 : e.slot = slot <;> by_cases h2 : e.state = .held <;> simp [h1, h2]
  simp only [Ehu.expire, List.map_map, List.length_cons, List.length_nil]
  congr 1
  · exact List.map_congr_left fun e _ => he e
  · rw [BitVec.add_assoc, ← BitVec.ofNat_add]
    congr 2
    omega

/-- A change of entries that leaves slots and the HELD entries of one slot as they were. -/
def KeepsHeld (slot : Nat) (q : HoldEntry → HoldEntry) : Prop :=
  ∀ e, (q e).slot = e.slot ∧ (e.slot = slot → (q e).arrival = e.arrival ∧ ((q e).state == .held) = (e.state == .held))

section
variable {x y : Ehu} {slot : Nat} {q : HoldEntry → HoldEntry} (hq : KeepsHeld slot q) (hy : y.queue = x.queue.map q)
include hq hy

theorem KeepsHeld.expired (limit : Nat) (tick : Word) : y.expired limit tick slot = x.expired limit tick slot := by
  rw [Ehu.expired, hy, List.any_map, Ehu.expired]
  congr 1
  funext e
  obtain ⟨hslot, hkeep⟩ := hq e
  by_cases h : e.slot = slot
  · obtain ⟨harr, hst⟩ := hkeep h
    rw [Function.comp_apply, hslot, hst, HoldEntry.age, HoldEntry.age, harr]
  · simp [hslot, beq_eq_false_iff_ne.mpr h]

theorem KeepsHeld.expiryEvent : expiryEvent y slot = expiryEvent x slot := by
  have hp : ((fun e : HoldEntry => e.slot == slot && e.state == .held) ∘ q) = fun e => e.slot == slot && e.state == .held := by
    funext e
    obtain ⟨hslot, hkeep⟩ := hq e
    by_cases h : e.slot = slot
    · simp only [Function.comp_apply, hslot, (hkeep h).2]
    · simp [hslot, beq_eq_false_iff_ne.mpr h]
  rw [Machine.expiryEvent, hy, List.countP_map, hp]
  rfl

end

/-- A slot that expires leaves every other as it was. -/
theorem keepsHeld_expireEntry {slot other : Nat} (h : other ≠ slot) : KeepsHeld other (expireEntry [slot]) := by
  intro e
  unfold expireEntry
  split
  · next hs => exact ⟨rfl, fun ho => absurd (ho.symm.trans (List.mem_singleton.mp hs.1)) h⟩
  · exact ⟨rfl, fun _ => ⟨rfl, rfl⟩⟩

theorem expireSlot_expired {x : Ehu} {limit : Nat} {tick : Word} {slot : Nat} (h : x.expired limit tick slot = true) (es : List Event) :
    Ehu.expireSlot limit tick (x, es) slot = (x.expire [slot], es ++ [expiryEvent x slot]) := by
  have he : expireEntry [slot] = fun e => if e.slot = slot ∧ e.state = .held then { e with state := .releasing } else e :=
    funext fun e => if_congr (by rw [List.mem_singleton]) rfl rfl
  refine (if_pos h).trans ?_
  rw [Ehu.expire, he]
  rfl

theorem foldl_expireSlot (limit : Nat) (tick : Word) {slots : List Nat} (hn : slots.Nodup) (x : Ehu) (es : List Event) :
    slots.foldl (Ehu.expireSlot limit tick) (x, es) =
      (x.expire (slots.filter (x.expired limit tick)), es ++ (slots.filter (x.expired limit tick)).map (expiryEvent x)) := by
  induction slots generalizing x es with
  | nil => simp [Ehu.expire_nil]
  | cons slot rest ih =>
    obtain ⟨hnot, hn'⟩ := List.nodup_cons.mp hn
    rw [List.foldl_cons]
    by_cases h : x.expired limit tick slot = true
    · have hk (o : Nat) (ho : o ∈ rest) : KeepsHeld o (expireEntry [slot]) := keepsHeld_expireEntry fun e => hnot (e ▸ ho)
      have hf : rest.filter ((x.expire [slot]).expired limit tick) = rest.filter (x.expired limit tick) :=
        List.filter_congr fun o ho => (hk o ho).expired rfl limit tick
      have hm : (rest.filter (x.expired limit tick)).map (expiryEvent (x.expire [slot])) =
          (rest.filter (x.expired limit tick)).map (expiryEvent x) :=
        List.map_congr_left fun o ho => (hk o (List.mem_filter.mp ho).1).expiryEvent rfl
      rw [expireSlot_expired h, ih hn', hf, hm, List.filter_cons_of_pos h, Ehu.expire_cons, List.map_cons, List.append_assoc]
      rfl
    · have hs : Ehu.expireSlot limit tick (x, es) slot = (x, es) := if_neg h
      rw [hs, ih hn', List.filter_cons_of_neg h]

theorem nodup_foldl_insert {l : List HoldEntry} {acc : List Nat} (h : acc.Nodup) :
    (l.foldl (fun l e => if e.slot ∈ l then l else l ++ [e.slot]) acc).Nodup := by
  induction l generalizing acc with
  | nil => exact h
  | cons e rest ih =>
    refine ih ?_
    dsimp only
    split
    · exact h
    · next hn => exact List.nodup_append.mpr ⟨h, by simp, fun a ha b hb hab => hn (List.mem_singleton.mp hb ▸ hab ▸ ha)⟩

theorem heldSlots_nodup (x : Ehu) : x.heldSlots.Nodup := nodup_foldl_insert List.nodup_nil

/-! ## The marked entries (R40) -/

/-- An entry put to release if it is MARKED (R40). -/
def releaseEntry (e : HoldEntry) : HoldEntry := if e.state = .marked then { e with state := .releasing } else e

theorem releaseEntry_held (e : HoldEntry) : (releaseEntry e).slot = e.slot ∧ (releaseEntry e).arrival = e.arrival ∧
    ((releaseEntry e).state == .held) = (e.state == .held) := by
  unfold releaseEntry
  split
  · next h => exact ⟨rfl, rfl, by rw [h]; rfl⟩
  · exact ⟨rfl, rfl, rfl⟩

theorem keepsHeld_releaseEntry (slot : Nat) : KeepsHeld slot releaseEntry :=
  fun e => ⟨(releaseEntry_held e).1, fun _ => (releaseEntry_held e).2⟩

theorem releaseMarked_queue (x : Ehu) : x.releaseMarked.queue = x.queue.map releaseEntry := rfl

theorem releaseMarked_heldSlots (x : Ehu) : x.releaseMarked.heldSlots = x.heldSlots := by
  have hp : ((fun e : HoldEntry => e.state == .held) ∘ releaseEntry) = fun e => e.state == .held :=
    funext fun e => (releaseEntry_held e).2.2
  simp only [Ehu.heldSlots, releaseMarked_queue, List.filter_map, hp, List.foldl_map, (releaseEntry_held _).1]

/-- The EHU's work at a boundary: every MARKED entry, and every HELD entry of a slot that expires, is put to release (R40). -/
theorem boundary_eq (x : Ehu) (limit : Nat) (tick : Word) :
    x.boundary limit tick = (x.releaseMarked.expire (x.heldSlots.filter fun slot => limit != 0 && x.expired limit tick slot),
      (x.heldSlots.filter fun slot => limit != 0 && x.expired limit tick slot).map (expiryEvent x)) := by
  unfold Ehu.boundary
  split
  · next h =>
    subst h
    simp [Ehu.expire_nil]
  · next h =>
    have he (slot : Nat) := (keepsHeld_releaseEntry slot).expired (releaseMarked_queue x) limit tick
    have hv (slot : Nat) := (keepsHeld_releaseEntry slot).expiryEvent (releaseMarked_queue x)
    rw [foldl_expireSlot limit tick (heldSlots_nodup _), releaseMarked_heldSlots, funext he, funext hv]
    simp only [bne_iff_ne.mpr h, Bool.true_and, List.nil_append]

theorem mem_foldl_insert {l : List HoldEntry} {acc : List Nat} {slot : Nat} :
    slot ∈ l.foldl (fun l e => if e.slot ∈ l then l else l ++ [e.slot]) acc ↔ slot ∈ acc ∨ ∃ e ∈ l, e.slot = slot := by
  induction l generalizing acc with
  | nil => simp
  | cons e rest ih =>
    rw [List.foldl_cons, ih, List.exists_mem_cons_iff, ← or_assoc]
    refine or_congr_left ?_
    split
    · next h => exact ⟨.inl, fun h' => h'.elim id fun he => he ▸ h⟩
    · rw [List.mem_append, List.mem_singleton, eq_comm]

theorem mem_heldSlots {x : Ehu} {slot : Nat} : slot ∈ x.heldSlots ↔ ∃ e ∈ x.queue, e.state = .held ∧ e.slot = slot := by
  rw [Ehu.heldSlots, mem_foldl_insert]
  simp [and_assoc]

/-- The two together, entry by entry (R40). -/
theorem expire_releaseMarked_queue (x : Ehu) (expired : Nat → Bool) :
    (x.releaseMarked.expire (x.heldSlots.filter expired)).queue = x.queue.map (fun e =>
      if e.state = .marked ∨ (e.state = .held ∧ expired e.slot = true) then { e with state := .releasing } else e) := by
  rw [Ehu.expire, releaseMarked_queue, List.map_map]
  refine List.map_congr_left fun e he => ?_
  have hmem : e.state = .held → (e.slot ∈ x.heldSlots.filter expired ↔ expired e.slot = true) := fun hh => by
    rw [List.mem_filter, and_iff_right (mem_heldSlots.mpr ⟨e, he, hh, rfl⟩)]
  rw [Function.comp_apply, expireEntry, releaseEntry]
  cases hs : e.state
  case held =>
    rw [hs] at hmem
    simp [hs, hmem rfl]
  all_goals simp [hs]

/-- Settles O29. -/
theorem ehuBoundaryReleases : Obligations.EhuBoundaryReleases := by
  refine ⟨fun s hd => ?_, fun routes g rows row above below hrow hle ha hb => onAirList_indices hrow hle ha hb,
    fun routes g rows row h => onAirList_empty g row h, mem_liveRoutes, recompute_eq⟩
  intro limit expired slots
  have hacts := Acts.ehuBoundary hd
  have hbound : s.ehu.boundary limit s.ftu.tick = (s.ehu.releaseMarked.expire slots, slots.map (expiryEvent s.ehu)) :=
    boundary_eq s.ehu limit s.ftu.tick
  rw [hbound] at hacts
  obtain ⟨he, hr⟩ := hacts.raises (bs := [.ehu, .ftu]) (es := slots.map (expiryEvent s.ehu))
    ((((Writes.refl _ s).withFtu _ (by decide)).withEhu _ (by decide)).raiseAll _)
    (by rw [raiseAll_sru, acceptAll_congr (raiseAll_ftu ..)]; rfl)
  refine ⟨_, he, hr, ?_, ?_⟩
  · rw [arbitrate_ftu, raiseAll_ftu]
    rfl
  · have hq := expire_releaseMarked_queue s.ehu expired
    rw [arbitrate_ehu, raiseAll_ehu, State.withEhu_ehu, ← hq]
    rfl

end Sys2Proof.Machine

/-! A release performed (R38, R42 to R45, R153). -/

namespace Sys2Proof.Machine

open Sys2Proof.Config

/-- The arbiter leaves the processor side alone when no access of its waits for a grant (R173). -/
theorem arbitrate_ptp_of_not_waiting {u : State} (h : ∀ k ∈ u.ptp.carried, k.stage ≠ .waiting) : (arbitrate u).ptp = u.ptp := by
  obtain ⟨hp, hk | ⟨k, hk, hw, -⟩⟩ := arbitrate_ptp u
  · rw [hp, hk]
  · exact absurd hw (h k hk)

/-- A release taken from the queue: memory has its bytes, and its slot is STALE in the LIVE heads' views (R38, R153). -/
def released (s : State) (wa : Nat) (e : HoldEntry) : State :=
  staleMark (((freePort s).withMem (writeWord s.mem e.wa e.mask e.data)).withEhu
    { s.ehu with queue := s.ehu.queue.filter (fun x => x.wa != wa) }) wa

/-- All that a performed release does (R38, R42, R45). -/
def releaseTaken (s : State) (wa : Nat) (e : HoldEntry) : State :=
  ((nearFullTest (released s wa e)).withPtp s.ptp.releasePerformed).withSru
    { (nearFullTest (released s wa e)).sru with resetLeft := s.sru.resetLeft - 1 }

theorem nearFullTest_resetLeft (s : State) : (nearFullTest s).sru.resetLeft = s.sru.resetLeft :=
  ((writes_nearFullTest s).sru (by decide)).resetLeft

section
variable {s : State} {a : PortAccess} {e : HoldEntry}

theorem acts_releaseTaken (hb : s.port.busy = some a) (ho : a.owner = .part .ehu) (hw : a.write = true) (hn : a.orphan = false)
    (he : s.ehu.queue.find? (fun x => x.wa == a.wa) = some e) : Acts s .releaseWriteDone false (releaseTaken s a.wa e) := by
  have ha := Acts.releaseWriteDone (inProgress_of hb ho hw) hn he rfl
  change Acts s .releaseWriteDone false (((nearFullTest (released s a.wa e)).withPtp (nearFullTest (released s a.wa e)).ptp.releasePerformed).withSru
    { (nearFullTest (released s a.wa e)).sru with resetLeft := (nearFullTest (released s a.wa e)).sru.resetLeft - 1 }) at ha
  rw [nearFullTest_ptp, nearFullTest_resetLeft] at ha
  exact ha

theorem writes_releaseTaken (s : State) (wa : Nat) (e : HoldEntry) :
    Writes [.mem, .port, .ehu, .hlt, .ptp, .sru] s (releaseTaken s wa e) := by
  have h : Writes [.mem, .port, .ehu, .hlt, .ptp, .sru] s (nearFullTest (released s wa e)) :=
    (((((Writes.refl _ s).withPort _ (by decide)).withMem _ (by decide)).withEhu _ (by decide)).withHlt _ (by decide)).step
      (writes_nearFullTest _) (by decide)
  exact (h.withPtp _ (by decide)).withSru _ (by decide)

theorem releaseTaken_sru (s : State) (wa : Nat) (e : HoldEntry) : (releaseTaken s wa e).sru =
    { acceptAll s.sru s (if s.sru.set.nearFull ≤ (s.ehu.queue.filter (fun x => x.wa != wa)).length ∧ s.ehu.nearFull = false then
        [.holdNear (s.ehu.queue.filter (fun x => x.wa != wa)).length s.sru.set.nearFull] else []) with
      resetLeft := s.sru.resetLeft - 1 } := by
  have hf := follows_nearFullTest (released s wa e)
  rw [releaseTaken, State.withSru_sru, hf.sru, acceptAll_congr (hf.frame.ftu (by decide))]
  rfl

theorem releasePerformed_of_spill {p : Ptp} {acc : Access} {l : Lanes} {b w : Bool} (h : p.carried = some ⟨acc, l, .spill b, w⟩) :
    p.releasePerformed = { p with carried := some ⟨acc, l, .spill true, w⟩ } := by
  rw [Ptp.releasePerformed, h]
  rfl

theorem releasePerformed_of_not_spill {p : Ptp} (h : ∀ k ∈ p.carried, ∀ b, k.stage ≠ .spill b) : p.releasePerformed = p := by
  rw [Ptp.releasePerformed]
  cases hc : p.carried with
  | none => rw [Option.map_none, ← hc]
  | some k =>
    have hm : (match k.stage with | .spill _ => { k with stage := .spill true } | _ => k) = k := by
      split
      · next b hb => exact absurd hb (h k hc b)
      · rfl
    refine Eq.trans ?_ (congrArg (fun o => { p with carried := o }) hc.symm)
    exact congrArg (fun c => { p with carried := some c }) hm

end

/-- Settles O28. -/
theorem releasePerformed : Obligations.ReleasePerformed := by
  refine ⟨fun s a e hm hb ho hw hn he => ?_, fun s a hm hb ho hw hn => ?_⟩
  · intro rest limit
    have ha := acts_releaseTaken hb ho hw hn he
    have hwr := writes_releaseTaken s a.wa e
    have hptp : (releaseTaken s a.wa e).ptp = s.ptp.releasePerformed := rfl
    refine ⟨_, exec_of_acts ha, ?_⟩
    rw [finish, if_neg (by simp)]
    refine ⟨hwr.onlyChanges_arbitrate (.inl (by simp)), wordWritten_of hm ?_, ?_, fun h => ?_, ?_, fun acc l b w hc => ?_, fun hc => ?_⟩
    · rw [arbitrate_mem]
      exact nearFullTest_mem _
    · rw [arbitrate_ehu]
      exact nearFullTest_ehu _
    · rw [arbitrate_hlt, (show (releaseTaken s a.wa e).hlt = (released s a.wa e).hlt from (writes_nearFullTest _).hlt (by decide))]
      cases h <;> rfl
    · rw [acceptAll_congr (t := s) (by rw [arbitrate_ftu]; exact hwr.ftu (by decide))]
      exact sruIs_congr (arbitrate_sruIs _) (by rw [releaseTaken_sru])
    · have hr := releasePerformed_of_spill hc
      rw [arbitrate_ptp_of_not_waiting (by rw [hptp, hr]; simp), hptp, hr]
    · refine sameBlock_arbitrate ?_
      exact hptp.trans (releasePerformed_of_not_spill hc)
  · have ha := Acts.releaseWriteLeft (inProgress_of hb ho hw) (.inl hn)
    obtain ⟨he, hc⟩ := ha.changes (bs := [.mem, .port]) (((Writes.refl _ s).withPort _ (by decide)).withMem _ (by decide)) (.inr rfl)
    exact ⟨_, he, hc, wordWritten_of hm (by rw [arbitrate_mem]; rfl)⟩

end Sys2Proof.Machine

/-! A processor access presented and taken: the state in which it is carried, and the walker's view of it (R5 to R7, R169, R170,
R175). -/

namespace Sys2Proof.Machine

open Sys2Proof.Config

/-! ## An access carried (R169, R173) -/

/-- The carried access as a taking leaves it: complete when it sends no lane to memory (R169). -/
def carriedOf (a : Access) (lanes : Lanes) (gone : Bool) : Carried :=
  ⟨a, lanes, if a.write = true ∧ lanes = 0 then .complete else .waiting, gone⟩

theorem carry_eq (s : State) (a : Access) (lanes : Lanes) (gone : Bool) :
    carry s a lanes gone = s.withPtp { s.ptp with carried := some (carriedOf a lanes gone) } := rfl

section
variable {gone : Bool} {u : State} {a : Access} {lanes : Lanes}

theorem carriedAs_of_complete (h : a.write = true ∧ lanes = 0) :
    carriedAs gone u a lanes ↔ u.ptp.carried = if gone then none else some ⟨a, lanes, .complete, false⟩ := by
  rw [carriedAs, if_pos h]

theorem carriedAs_of_waits (h : ¬(a.write = true ∧ lanes = 0)) : carriedAs gone u a lanes ↔
    u.ptp.carried = some ⟨a, lanes, .waiting, gone⟩ ∨ u.ptp.carried = some ⟨a, lanes, .onPort, gone⟩ := by
  rw [carriedAs, if_neg h]

/-- An access carried stays so when the arbiter acts (R173). -/
theorem carriedAs_arbitrate (h : carriedAs gone u a lanes) : carriedAs gone (arbitrate u) a lanes := by
  obtain ⟨-, hk | ⟨d, hd, hs, hk⟩⟩ := arbitrate_ptp u
  · unfold carriedAs at h ⊢
    rwa [hk]
  · by_cases hc : a.write = true ∧ lanes = 0
    · rw [carriedAs_of_complete hc, hd] at h
      cases gone
      · cases h
        cases hs
      · cases h
    · rw [carriedAs_of_waits hc] at h ⊢
      rcases h with h | h
      · rw [hd] at h
        cases h
        exact .inr hk
      · rw [hd] at h
        cases h
        cases hs

theorem endWithdrawn_of_stays {c : Carried} (hc : u.ptp.carried = some c) (h : ¬(c.withdrawn = true ∧ c.stage = .complete)) :
    endWithdrawn u = u := by
  rw [endWithdrawn, hc]
  exact if_neg h

theorem endWithdrawn_of_ends {c : Carried} (hc : u.ptp.carried = some c) (h : c.withdrawn = true ∧ c.stage = .complete) :
    endWithdrawn u = u.withPtp { u.ptp with carried := none } := by
  rw [endWithdrawn, hc]
  exact if_pos h

/-- An access carried, at whose end a withdrawn one is gone (R169). -/
theorem carriedAs_carry (s : State) (a : Access) (lanes : Lanes) (gone : Bool) : carriedAs gone (endWithdrawn (carry s a lanes gone)) a lanes := by
  by_cases hc : a.write = true ∧ lanes = 0
  · have hcar : (carry s a lanes gone).ptp.carried = some ⟨a, lanes, .complete, gone⟩ := by
      rw [carry_eq, State.withPtp_ptp, carriedOf, if_pos hc]
    rw [carriedAs_of_complete hc]
    cases gone with
    | false => rw [endWithdrawn_of_stays hcar (by simp), hcar]; rfl
    | true => rw [endWithdrawn_of_ends hcar ⟨rfl, rfl⟩]; rfl
  · have hcar : (carry s a lanes gone).ptp.carried = some ⟨a, lanes, .waiting, gone⟩ := by
      rw [carry_eq, State.withPtp_ptp, carriedOf, if_neg hc]
    rw [carriedAs_of_waits hc, endWithdrawn_of_stays hcar (by simp), hcar]
    exact .inl rfl

theorem endWithdrawn_carry (s : State) (a : Access) (lanes : Lanes) : endWithdrawn (carry s a lanes false) = carry s a lanes false :=
  endWithdrawn_of_stays (c := carriedOf a lanes false) rfl (by simp [carriedOf])

end

/-! ## A presentation taken at once (R169) -/

/-- Nothing stands presented. -/
def unpresented (s : State) : State := s.withPtp { s.ptp with presented := none }

theorem writes_unpresented (s : State) : Writes [.ptp] s (unpresented s) := writes_withPtp s _

theorem exec_presents {c : Instr} {a : Access} (h : presentsAccess c a) (s : State) : exec c s = .next (goOn (present s a)) := by
  obtain ⟨w, ha, be, data⟩ := a
  rcases h with ⟨hw, h⟩ | ⟨hw, rfl⟩
  · obtain rfl : w = true := hw
    rcases h with rfl | rfl | rfl | rfl | ⟨oe, rfl⟩
    exacts [exec_of_acts (.structureWrite ..), exec_of_acts (.contentWrite ..), exec_of_acts (.commitWrite ..),
      exec_of_acts (.droppedWrite ..), exec_of_acts (.accessPresented (.inl rfl))]
  · obtain rfl : w = false := hw
    exact exec_of_acts (.accessPresented (.inr rfl))

theorem goOn_taken {u : State} {a : Access} (hr : readyToTake u) (hp : u.ptp.presented = some a) :
    goOn u = arbitrate (takeAccess (unpresented u) a) := by
  rcases takePresented_cases u with ⟨-, h | h⟩ | ⟨d, -, hd, h⟩
  · exact absurd hr h
  · rw [hp] at h
    cases h
  · rw [hp] at hd
    cases hd
    rw [goOn, h]
    rfl

/-- An access presented when the port takes it at once (R169, R177). -/
theorem exec_taken {c : Instr} {a : Access} {s : State} (h : presentsAccess c a) (hr : readyToTake s) :
    exec c s = .next (arbitrate (takeAccess (unpresented s) a)) := by
  rw [exec_presents h, goOn_taken (u := present s a) hr rfl]
  rfl

/-! ## What a taken access is carried as (R169, R170, R175) -/

section
variable {s : State} {a : Access}

theorem takeAccess_read (h : a.write = false) : takeAccess s a = carry s a 0 false := if_neg (by simp [h])

theorem takeAccess_plain (hw : a.write = true)
    (h : windowOf a.ha.toNat = .control ∨ windowOf a.ha.toNat = .general ∨ a.ha.toNat = consumeWord) :
    takeAccess s a = carry s a a.be false := by
  rw [takeAccess, if_pos hw]
  rcases h with h | h | h
  · rw [h]
  · rw [h]
  · rw [h]
    exact if_pos rfl

theorem takeAccess_dropped (hw : a.write = true) (h : droppedAccess a.ha = true) :
    takeAccess s a = (carry s a 0 false).withPtp { (carry s a 0 false).ptp with dropped := s.ptp.dropped + 1 } := by
  simp only [droppedAccess, Bool.and_eq_true, beq_iff_eq, bne_iff_ne] at h
  rw [takeAccess, if_pos hw, h.1]
  exact if_neg h.2

theorem takeAccess_rundown (hw : a.write = true) (h : windowOf a.ha.toNat = .rundown) :
    takeAccess s a = carry (structureSeen s a) a a.be false := by
  rw [takeAccess, if_pos hw, h]

theorem takeAccess_line (hw : a.write = true) (h : windowOf a.ha.toNat = .line) :
    takeAccess s a = decideWrite (structureSeen s a) a false := by
  rw [takeAccess, if_pos hw, h]

end

/-- What is left of the processor side and of the carried access when a taking and the arbiter have acted (R169, R173). -/
theorem carried_by_taking {s v : State} {a : Access} {lanes : Lanes} (hv : v.ptp = (unpresented s).ptp) :
    carriedAs false (arbitrate (carry v a lanes false)) a lanes ∧ (arbitrate (carry v a lanes false)).ptp =
      { s.ptp with carried := (arbitrate (carry v a lanes false)).ptp.carried, presented := none } := by
  refine ⟨carriedAs_arbitrate ?_, ?_⟩
  · have hc := carriedAs_carry v a lanes false
    rwa [endWithdrawn_carry] at hc
  · have hc : (carry v a lanes false).ptp = { s.ptp with carried := some (carriedOf a lanes false), presented := none } := by
      rw [carry_eq, State.withPtp_ptp, hv]
      rfl
    have hp := (arbitrate_ptp (carry v a lanes false)).1
    rw [hc] at hp
    exact hp

end Sys2Proof.Machine

/-! A structure write taken, and the accesses that memory takes or that are dropped, withdrawn or ended (R5 to R7, R169, R170,
R175, R177). -/

namespace Sys2Proof.Machine

open Sys2Proof.Config

/-! ## The walker and a structure write (R6, R7) -/

section
variable {x : Walker} {n : Nat}

theorem structureWrite_runs (h : 0 < n) : x.structureWrite n =
    { x with mapStale := true, settle := .running n, rewalk := x.rewalk || x.phase == .walking } := if_neg (by omega)

theorem structureWrite_elapsed (h : x.phase ≠ .idle) : x.structureWrite 0 =
    { x with mapStale := true, settle := .elapsed, rewalk := x.rewalk || x.phase == .walking } := settleExpires_kept (.inl h)

theorem structureWrite_walks (h : x.phase = .idle) : x.structureWrite 0 =
    { x with
      mapStale := true, settle := .elapsed, phase := .walking, rewalk := false, seen := 0
      bank := ⟨[], 0, 0, x.discards⟩, read := some (.entryWord 0) } := settleExpires_idle h rfl

end

theorem writes_seen (s : State) (a : Access) : Writes [.rwk, .ptp] s (structureSeen (unpresented s) a) :=
  ((writes_unpresented s).mono (by decide)).step (writes_structureSeen _ a) (by decide)

theorem seen_sru (s : State) (a : Access) : (structureSeen (unpresented s) a).sru = s.sru := by
  unfold structureSeen
  split <;> rfl

theorem seen_ptp (s : State) (a : Access) : (structureSeen (unpresented s) a).ptp = (unpresented s).ptp := structureSeen_ptp ..

theorem and_not_of_disjoint {x y : Lanes} (h : x &&& y = 0) : x &&& ~~~y = x := by
  ext i hi
  have hb : (x &&& y)[i] = false := by rw [h]; simp
  rw [BitVec.getElem_and] at hb
  rw [BitVec.getElem_and, BitVec.getElem_not]
  cases hx : x[i] <;> simp_all

/-- A write of a line word with no content lane is carried as its commit lane leaves the state (R39). -/
theorem decideWrite_no_content {s : State} {a : Access} (hc : a.be &&& contentLanes (slotWordOf a.ha.toNat) = 0) (gone : Bool) :
    decideWrite s a gone = carry (commitActs s a) a a.be gone := by
  rw [decideWrite]
  dsimp only
  rw [if_pos hc, and_not_of_disjoint hc]

/-- A write of a line word with neither a content nor a commit lane is only carried (R170). -/
theorem decideWrite_plain {s : State} {a : Access} (hc : a.be &&& contentLanes (slotWordOf a.ha.toNat) = 0)
    (hm : a.be &&& commitLanes (slotWordOf a.ha.toNat) = 0) (gone : Bool) : decideWrite s a gone = carry s a a.be gone := by
  rw [decideWrite_no_content hc, commitActs, if_pos hm]

/-- A structure write that does nothing else is carried to memory with all its lanes (R170). -/
theorem takeAccess_structure {s : State} {a : Access} (hw : a.write = true) (hs : structureAccess a.ha a.be = true)
    (hc : contentAccess a.ha a.be = false) (hm : commitAccess a.ha a.be = false) :
    takeAccess s a = carry (structureSeen s a) a a.be false := by
  cases hwin : windowOf a.ha.toNat
  case rundown => exact takeAccess_rundown hw hwin
  case line =>
    simp only [contentAccess, commitAccess, hwin, beq_self_eq_true, Bool.true_and, bne_eq_false_iff_eq] at hc hm
    rw [takeAccess_line hw hwin, decideWrite_plain hc hm]
  all_goals simp [structureAccess, structureLanesAt, hwin] at hs

/-- Settles O26. -/
theorem structureWriteTaken : Obligations.StructureWriteTaken := by
  intro c a s hp hr hs
  have hrwk : (arbitrate (takeAccess (unpresented s) a)).rwk = s.rwk.structureWrite s.sru.set.settle := by
    rw [arbitrate_rwk, takeAccess_rwk, if_pos ⟨hp.1, hs⟩]
    rfl
  refine ⟨_, exec_taken (.inl hp) hr, fun hn => ?_, fun hn hi => ?_, fun hn hi => ?_, fun hc hm => ?_⟩
  · rw [hrwk, structureWrite_runs hn]
  · rw [hrwk, hn, structureWrite_elapsed hi]
  · rw [hrwk, hn, structureWrite_walks hi]
  · rw [takeAccess_structure hp.1 hs hc hm]
    refine ⟨?_, carried_by_taking (seen_ptp s a)⟩
    exact ((writes_seen s a).step (writes_carry ..) (by decide)).onlyChanges_arbitrate (.inr (seen_sru s a))

/-! ## Accesses that memory takes, dropped ones, and those that end (R169, R175) -/

theorem acts_hcsHigh {c : Instr} (h : c = .accessWithdrawn ∨ c = .hcsRises) (s : State) : exec c s = .next (goOn (hcsHigh s)) := by
  rcases h with rfl | rfl
  exacts [exec_of_acts .accessWithdrawn, exec_of_acts .hcsRises]

section
variable {s : State} {k : Carried}

theorem hcsHigh_complete (hc : s.ptp.carried = some k) (hk : k.stage = .complete) :
    hcsHigh s = s.withPtp { s.ptp with carried := none } := by
  simp [hcsHigh, hc, hk]

theorem hcsHigh_withdraws (hc : s.ptp.carried = some k) (hk : k.stage ≠ .complete) (hw : k.withdrawn = false) :
    hcsHigh s = s.withPtp { s.ptp with carried := some { k with withdrawn := true } } := by
  simp [hcsHigh, hc, hk, hw]

theorem hcsHigh_again (hc : s.ptp.carried = some k) (hk : k.stage ≠ .complete) (hw : k.withdrawn = true) :
    hcsHigh s = unpresented s := by
  simp [hcsHigh, hc, hk, hw, unpresented]

theorem hcsHigh_nothing (hc : s.ptp.carried = none) : hcsHigh s = unpresented s := by
  simp [hcsHigh, hc, unpresented]

end

theorem onlyChanges_ptp {s : State} (x : Ptp) : onlyChanges [.ptp] s (arbitrate (s.withPtp x)) :=
  (writes_withPtp s x).onlyChanges_arbitrate (.inr rfl)

/-- Settles O49. -/
theorem accessTaken : Obligations.AccessTaken := by
  refine ⟨fun s ha be hd hr => ?_, fun s ha be hd => ?_, fun c a s hp hr hwin => ?_, fun c a s hp hr hd => ?_, fun c a s hp hr => ?_,
    fun c a u hp hpr hr => ?_, fun u h => goOn_eq_arbitrate h, fun c s k hc hk => ?_, fun c s hc hk => ?_⟩
  · have he := exec_taken (c := .accessPresented ⟨ha, be, hd, false, true⟩) (a := ⟨false, ha, be, hd⟩) (.inr ⟨rfl, rfl⟩) hr
    rw [takeAccess_read rfl] at he
    exact ⟨_, he, onlyChanges_ptp _, carried_by_taking rfl⟩
  · simp [exec, execAccessPresented]
  · have he := exec_taken (.inl hp) hr
    rw [takeAccess_plain hp.1 hwin] at he
    exact ⟨_, he, onlyChanges_ptp _, carried_by_taking rfl⟩
  · have he := exec_taken (.inl hp) hr
    have hptp : (takeAccess (unpresented s) a).ptp = { s.ptp with
        carried := some ⟨a, 0, .complete, false⟩, presented := none, dropped := s.ptp.dropped + 1 } := by
      rw [takeAccess_dropped hp.1 hd, State.withPtp_ptp, carry_eq, State.withPtp_ptp, carriedOf, if_pos ⟨hp.1, rfl⟩]
      rfl
    have harb := arbitrate_ptp_of_not_waiting (u := takeAccess (unpresented s) a) (by rw [hptp]; simp)
    rw [hptp] at harb
    refine ⟨_, he, ?_, by rw [readyHigh, harb]; rfl, harb⟩
    rw [takeAccess_dropped hp.1 hd]
    exact onlyChanges_ptp _
  · have hg := goOn_eq_arbitrate (s := present s a) (.inl hr)
    obtain ⟨h1, h2⟩ := arbitrate_ptp (present s a)
    refine ⟨_, (exec_presents hp s).trans (congrArg _ hg), onlyChanges_ptp _, h2, h1⟩
  · have hu : present u a = u := by
      rw [present, ← hpr]
      rfl
    rw [exec_presents hp, hu]
  · refine ⟨_, acts_hcsHigh hc s, fun hst hn => ?_, fun d a hst hpr hrun hho hp => ?_, fun hst hw => ?_, fun hst hw => ?_⟩
    · have hg : goOn (hcsHigh s) = arbitrate (s.withPtp { s.ptp with carried := none }) := by
        rw [hcsHigh_complete hk hst]
        refine goOn_eq_arbitrate ?_
        rcases hn with hn | hn | hn
        exacts [.inr hn, .inl fun hr => hn hr.1, .inl fun hr => hn hr.2.2]
      have hp : (goOn (hcsHigh s)).ptp = { s.ptp with carried := none } := by
        rw [hg]
        exact arbitrate_carried_none rfl
      rw [readyHigh, hp, hg]
      exact ⟨onlyChanges_ptp _, rfl, rfl⟩
    · rw [exec_presents hp, hcsHigh_complete hk hst, present, ← hpr]
      rfl
    · have hg : goOn (hcsHigh s) = arbitrate (s.withPtp { s.ptp with carried := some { k with withdrawn := true } }) := by
        rw [hcsHigh_withdraws hk hst hw]
        exact goOn_eq_arbitrate (.inl fun hr => by cases hr.2.1)
      rw [hg]
      refine ⟨onlyChanges_ptp _, ?_⟩
      obtain ⟨h1, h2 | ⟨d, hd, hs, h2⟩⟩ := arbitrate_ptp (s.withPtp { s.ptp with carried := some { k with withdrawn := true } })
      · exact .inl (by rw [h1, h2]; rfl)
      · cases hd
        exact .inr ⟨hs, by rw [h1, h2]; rfl⟩
    · have hg : goOn (hcsHigh s) = arbitrate (unpresented s) := by
        rw [hcsHigh_again hk hst hw]
        exact goOn_eq_arbitrate (.inr rfl)
      rw [hg]
      obtain ⟨h1, h2⟩ := arbitrate_ptp (unpresented s)
      exact ⟨onlyChanges_ptp _, h2, h1⟩
  · have hg : goOn (hcsHigh s) = arbitrate (unpresented s) := by
      rw [hcsHigh_nothing hk]
      exact goOn_eq_arbitrate (.inr rfl)
    refine ⟨_, (acts_hcsHigh hc s).trans (congrArg _ hg), onlyChanges_ptp _, ?_⟩
    exact arbitrate_carried_none (u := unpresented s) hk

end Sys2Proof.Machine

/-! A write of a line word decided: joined, made into an entry, spilled or passed (R31, R33, R35, R36, R39, R42, R45). -/

namespace Sys2Proof.Machine

open Sys2Proof.Config

/-! ## The edit mode in effect (R31, R33) -/

theorem batched_iff {s : State} {slot : Nat} : batched s slot ↔ effectiveMode s.ehu s.sru.set.editMode slot = some .batch := by
  unfold batched effectiveMode
  cases s.ehu.onAir.find? (fun a => a.slot == slot) with
  | none => simp
  | some o => cases hg : s.ehu.guardSet.getLsbD o.entry <;> simp [hg]

theorem holding_iff {s : State} {slot : Nat} : holding s slot ↔
    effectiveMode s.ehu s.sru.set.editMode slot = some .batch ∨ effectiveMode s.ehu s.sru.set.editMode slot = some .shelter := by
  unfold holding effectiveMode
  cases s.ehu.onAir.find? (fun a => a.slot == slot) with
  | none => simp
  | some o => cases hg : s.ehu.guardSet.getLsbD o.entry <;> cases hm : s.sru.set.editMode <;> simp [hg]

/-! ## The decision (R35) -/

section
variable {s : State} {wa slot : Nat}

theorem decideContent_held (h : ∃ e ∈ s.ehu.queue, e.wa = wa) : decideContent s.ehu s.sru.set.editMode wa slot = .join :=
  if_pos (by simpa using h)

theorem decideContent_holding (hn : ¬∃ e ∈ s.ehu.queue, e.wa = wa) (hh : holding s slot) :
    decideContent s.ehu s.sru.set.editMode wa slot = if s.ehu.queue.length < holdCapacity then .make else .full := by
  rw [decideContent, if_neg (by simpa using hn)]
  rcases holding_iff.mp hh with h | h <;> rw [h]

theorem decideContent_passes (hn : ¬∃ e ∈ s.ehu.queue, e.wa = wa) (hh : ¬holding s slot) :
    decideContent s.ehu s.sru.set.editMode wa slot = .pass := by
  rw [decideContent, if_neg (by simpa using hn)]
  rw [holding_iff, not_or] at hh
  split
  · next h => exact absurd h hh.1
  · next h => exact absurd h hh.2
  · rfl

end

/-! ## The commit lane (R39) -/

theorem commitActs_sru (s : State) (a : Access) : (commitActs s a).sru = s.sru := by
  unfold commitActs
  split <;> rfl

/-- The queue after the commit lane has acted, where the edit mode in effect is that of another state (R39). -/
theorem commitActs_marks {s v : State} {a : Access} (hw : windowOf a.ha.toNat = .line) (ho : v.ehu.onAir = s.ehu.onAir)
    (hg : v.ehu.guardSet = s.ehu.guardSet) (hm : v.sru.set.editMode = s.sru.set.editMode) :
    (commitActs v a).ehu = { v.ehu with queue := (commitActs v a).ehu.queue } ∧
      commitMarks s a v.ehu.queue (commitActs v a).ehu.queue := by
  have hb : effectiveMode v.ehu v.sru.set.editMode (slotOf a.ha.toNat) = some .batch ↔ batched s (slotOf a.ha.toNat) := by
    rw [batched_iff, effectiveMode, effectiveMode, ho, hg, hm]
  have hacc : commitAccess a.ha a.be = true ↔ a.be &&& commitLanes (slotWordOf a.ha.toNat) ≠ 0 := by
    simp [commitAccess, hw]
  by_cases hc : commitAccess a.ha a.be = true
  · have he : commitActs v a = v.withEhu (v.ehu.commit v.sru.set.editMode (slotOf a.ha.toNat)) := if_neg (hacc.mp hc)
    rw [he]
    by_cases hbt : batched s (slotOf a.ha.toNat)
    · have hcm : v.ehu.commit v.sru.set.editMode (slotOf a.ha.toNat) = _ := if_pos (hb.mpr hbt)
      rw [hcm]
      exact ⟨rfl, fun _ _ => rfl, fun h => h.elim (fun h => absurd hc (by simp [h])) (absurd hbt)⟩
    · have hcm : v.ehu.commit v.sru.set.editMode (slotOf a.ha.toNat) = v.ehu := if_neg (mt hb.mp hbt)
      rw [hcm]
      exact ⟨rfl, fun _ h => absurd h hbt, fun _ => rfl⟩
  · have he : commitActs v a = v := if_pos (not_not.mp (mt hacc.mpr hc))
    rw [he]
    exact ⟨rfl, fun h => absurd h hc, fun _ => rfl⟩

/-! ## The four ways (R35, R36, R42) -/

/-- A write decided, at whose end a withdrawn one is gone (R35, R169). -/
def decided (s : State) (a : Access) (gone : Bool) : State := endWithdrawn (decideWrite s a gone)

theorem endWithdrawn_blocks (s : State) : (endWithdrawn s).ehu = s.ehu ∧ (endWithdrawn s).sru = s.sru ∧ (endWithdrawn s).ftu = s.ftu := by
  unfold endWithdrawn
  split
  · split <;> exact ⟨rfl, rfl, rfl⟩
  · exact ⟨rfl, rfl, rfl⟩

section
variable {s : State} {a : Access} (gone : Bool) (hc : a.be &&& contentLanes (slotWordOf a.ha.toNat) ≠ 0)
include hc

/-- The lanes of a line word that are not content lanes (R27). -/
abbrev otherLanes (a : Access) : Lanes := a.be &&& ~~~(contentLanes (slotWordOf a.ha.toNat))

/-- The content lanes of a line word that are enabled (R27). -/
abbrev enabledContent (a : Access) : Lanes := a.be &&& contentLanes (slotWordOf a.ha.toNat)

theorem decideWrite_join (h : ∃ e ∈ s.ehu.queue, e.wa = a.ha.toNat) : decideWrite s a gone =
    carry (commitActs (s.withEhu (s.ehu.joinEntry a.ha.toNat (enabledContent a) a.data)) a) a (otherLanes a) gone := by
  rw [decideWrite]
  dsimp only
  rw [if_neg hc, decideContent_held h]

theorem decideWrite_make (hn : ¬∃ e ∈ s.ehu.queue, e.wa = a.ha.toNat) (hh : holding s (slotOf a.ha.toNat))
    (hl : s.ehu.queue.length < 64) : decideWrite s a gone = carry (commitActs (nearFullTest (s.withEhu
      (s.ehu.makeEntry a.ha.toNat (slotOf a.ha.toNat) (enabledContent a) a.data s.ftu.tick))) a) a (otherLanes a) gone := by
  rw [decideWrite]
  dsimp only
  rw [if_neg hc, decideContent_holding hn hh, if_pos (show s.ehu.queue.length < holdCapacity from hl)]

theorem decideWrite_full (hn : ¬∃ e ∈ s.ehu.queue, e.wa = a.ha.toNat) (hh : holding s (slotOf a.ha.toNat))
    (hl : 64 ≤ s.ehu.queue.length) : decideWrite s a gone = (raiseAll (s.withEhu s.ehu.spill.1) s.ehu.spill.2).withPtp
      { s.ptp with carried := some ⟨a, 0, .spill false, gone⟩ } := by
  rw [decideWrite]
  dsimp only
  rw [if_neg hc, decideContent_holding hn hh, if_neg (show ¬s.ehu.queue.length < holdCapacity from Nat.not_lt.mpr hl)]

theorem decideWrite_pass (hn : ¬∃ e ∈ s.ehu.queue, e.wa = a.ha.toNat) (hh : ¬holding s (slotOf a.ha.toNat)) :
    decideWrite s a gone = carry (commitActs s a) a a.be gone := by
  rw [decideWrite]
  dsimp only
  rw [if_neg hc, decideContent_passes hn hh]

end

end Sys2Proof.Machine

/-! The statement on the writes to the line store (R31, R33, R35, R36, R39, R42, R45). -/

namespace Sys2Proof.Machine

open Sys2Proof.Config

/-! ## A spill (R42) -/

theorem spill_nothing {x : Ehu} (h : ∀ e ∈ x.queue, e.state = .releasing) : x.spill = (x, []) := by
  have hf : x.queue.find? (fun e => e.state != .releasing) = none := by simpa using h
  rw [Ehu.spill, hf]

theorem spill_oldest {x : Ehu} {older newer : List HoldEntry} {o : HoldEntry} (hq : x.queue = older ++ o :: newer)
    (hold : ∀ e ∈ older, e.state = .releasing) (ho : o.state ≠ .releasing) : x.spill =
      ({ x with
          queue := x.queue.map (fun e => if e.slot = o.slot then { e with state := .releasing } else e), spills := x.spills + 1 },
        [.holdSpill o.slot (x.queue.countP (fun e => e.slot == o.slot && e.state != .releasing))]) := by
  have hf : x.queue.find? (fun e => e.state != .releasing) = some o := by
    have hn : older.find? (fun e => e.state != .releasing) = none := by simpa using hold
    rw [hq, List.find?_append, hn, Option.none_or, List.find?_cons_of_pos (by simpa using ho)]
  rw [Ehu.spill, hf]

/-! ## What a decided write leaves (R35, R36, R39, R42, R45) -/

section
variable {s : State} {a : Access} {gone : Bool}

/-- A write that joins, is made into an entry or passes is carried as its commit lane has left the queue. -/
theorem decided_carried (hw : windowOf a.ha.toNat = .line) {v : State} {lanes : Lanes} (hd : decideWrite s a gone = carry (commitActs v a) a lanes gone)
    (ho : v.ehu.onAir = s.ehu.onAir) (hg : v.ehu.guardSet = s.ehu.guardSet) (hm : v.sru.set.editMode = s.sru.set.editMode) :
    carriedAs gone (decided s a gone) a lanes ∧ (decided s a gone).sru = v.sru ∧
      (decided s a gone).ehu = { v.ehu with queue := (decided s a gone).ehu.queue } ∧
      commitMarks s a v.ehu.queue (decided s a gone).ehu.queue := by
  obtain ⟨hehu, hsru, -⟩ := endWithdrawn_blocks (carry (commitActs v a) a lanes gone)
  obtain ⟨h1, h2⟩ := commitActs_marks (v := v) hw ho hg hm
  rw [decided, hd]
  refine ⟨carriedAs_carry .., hsru.trans (commitActs_sru v a), ?_, ?_⟩ <;> rw [hehu]
  · exact h1
  · exact h2

/-- A new entry, with the near-full flag brought up to the count (R35, R45). -/
def entryMade (s : State) (a : Access) : State :=
  nearFullTest (s.withEhu (s.ehu.makeEntry a.ha.toNat (slotOf a.ha.toNat) (enabledContent a) a.data s.ftu.tick))

theorem entryMade_ehu (s : State) (a : Access) : (entryMade s a).ehu = { s.ehu with
    queue := s.ehu.queue ++ [⟨a.ha.toNat, enabledContent a, a.data, slotOf a.ha.toNat, s.ftu.tick, .held⟩]
    nearFull := decide (s.sru.set.nearFull ≤ s.ehu.queue.length + 1) } := by
  rw [entryMade, nearFullTest_ehu]
  simp [Ehu.makeEntry]

theorem entryMade_sru (s : State) (a : Access) : (entryMade s a).sru = acceptAll s.sru s
    (if s.sru.set.nearFull ≤ s.ehu.queue.length + 1 ∧ s.ehu.nearFull = false then
      [.holdNear (s.ehu.queue.length + 1) s.sru.set.nearFull] else []) := by
  have hf := follows_nearFullTest (s.withEhu
    (s.ehu.makeEntry a.ha.toNat (slotOf a.ha.toNat) (enabledContent a) a.data s.ftu.tick))
  have hlen : (s.ehu.makeEntry a.ha.toNat (slotOf a.ha.toNat) (enabledContent a) a.data s.ftu.tick).queue.length =
      s.ehu.queue.length + 1 := List.length_append
  rw [entryMade, hf.sru, acceptAll_congr (hf.frame.ftu (by decide)), State.withEhu_ehu, hlen]
  rfl

theorem decided_full (hc : enabledContent a ≠ 0) (hn : ¬∃ e ∈ s.ehu.queue, e.wa = a.ha.toNat) (hh : holding s (slotOf a.ha.toNat))
    (hl : 64 ≤ s.ehu.queue.length) :
    (decided s a gone).ptp.carried = some ⟨a, 0, .spill false, gone⟩ ∧ (decided s a gone).ehu = s.ehu.spill.1 ∧
      (decided s a gone).sru = acceptAll s.sru s s.ehu.spill.2 := by
  have hs : decided s a gone = decideWrite s a gone := by
    rw [decided, decideWrite_full gone hc hn hh hl]
    exact endWithdrawn_of_stays rfl (by simp)
  rw [hs, decideWrite_full gone hc hn hh hl]
  refine ⟨rfl, ?_, ?_⟩
  · rw [State.withPtp_ehu, raiseAll_ehu]
    rfl
  · rw [State.withPtp_sru, raiseAll_sru]
    rfl

theorem decidedWrite_decided (hw : windowOf a.ha.toNat = .line) (hc : enabledContent a ≠ 0) : decidedWrite gone s (decided s a gone) a := by
  have hftu : (decided s a gone).ftu = s.ftu :=
    (endWithdrawn_blocks _).2.2.trans ((writes_decideWrite s a gone).ftu (by decide))
  unfold decidedWrite
  dsimp only
  refine ⟨fun h => ?_, fun hn hh hl => ?_, fun hn hh hl => ?_, fun hn hh => ?_⟩
  · obtain ⟨h1, h2, h3, h4⟩ := decided_carried hw (decideWrite_join gone hc h) rfl rfl rfl
    exact ⟨h1, sruIs_of_eq h2, h3, h4⟩
  · have hset : (entryMade s a).sru.set = s.sru.set := (writes_nearFullTest _).set (by decide)
    obtain ⟨h1, h2, h3, h4⟩ := decided_carried (v := entryMade s a) hw (decideWrite_make gone hc hn hh hl) (by rw [entryMade_ehu])
      (by rw [entryMade_ehu]) (by rw [hset])
    rw [entryMade_ehu] at h3 h4
    exact ⟨h1, h3, h4, sruIs_of_eq (h2.trans ((entryMade_sru s a).trans (acceptAll_congr hftu.symm ..)))⟩
  · obtain ⟨h1, h2, h3⟩ := decided_full (gone := gone) hc hn hh hl
    refine ⟨h1, fun h => ?_, fun older o newer hq hold ho => ?_⟩
    · rw [spill_nothing h] at h2 h3
      exact ⟨h2, sruIs_of_eq h3⟩
    · rw [spill_oldest hq hold ho] at h2 h3
      exact ⟨h2, sruIs_of_eq (h3.trans (acceptAll_congr hftu.symm ..))⟩
  · obtain ⟨h1, h2, h3, h4⟩ := decided_carried hw (decideWrite_pass gone hc hn hh) rfl rfl rfl
    exact ⟨h1, sruIs_of_eq h2, h3, h4⟩

end

theorem sruIs_trans {x : Sru} {u t : State} (h : sruIs x u) (h' : sruIs u.sru t) : sruIs x t := by
  obtain ⟨h1, h2⟩ := h
  obtain ⟨h1', h2'⟩ := h'
  refine ⟨by rw [h1', h1], ?_⟩
  rcases h2' with ⟨hf, hq⟩ | ⟨hf, hq⟩
  · rw [hf, hq]
    exact h2
  · exact .inr ⟨hf, hq⟩

theorem decidedWrite_congr {s v t : State} {a : Access} {gone : Bool} (hehu : v.ehu = s.ehu) (hsru : v.sru = s.sru) (hftu : v.ftu = s.ftu)
    (h : decidedWrite gone v t a) : decidedWrite gone s t a := by
  simp only [decidedWrite, holding, commitMarks, batched, hehu, hsru, hftu] at h ⊢
  exact h

theorem decidedWrite_arbitrate {s u : State} {a : Access} {gone : Bool} (h : decidedWrite gone s u a) : decidedWrite gone s (arbitrate u) a := by
  have hs {x : Sru} (hx : sruIs x u) : sruIs x (arbitrate u) := sruIs_trans hx (arbitrate_sruIs u)
  have hacc (es : List Event) : acceptAll s.sru (arbitrate u) es = acceptAll s.sru u es := acceptAll_congr (arbitrate_ftu u) ..
  unfold decidedWrite at h ⊢
  simp only [arbitrate_ehu, hacc]
  dsimp only at h
  obtain ⟨hjoin, hmake, hfull, hpass⟩ := h
  refine ⟨fun hh => ?_, fun hn hh hl => ?_, fun hn hh hl => ?_, fun hn hh => ?_⟩
  · obtain ⟨h1, h2, h3⟩ := hjoin hh
    exact ⟨carriedAs_arbitrate h1, hs h2, h3⟩
  · obtain ⟨h1, h2, h3, h4⟩ := hmake hn hh hl
    exact ⟨carriedAs_arbitrate h1, h2, h3, hs h4⟩
  · obtain ⟨h1, h2, h3⟩ := hfull hn hh hl
    refine ⟨by rw [arbitrate_ptp_of_not_waiting (by rw [h1]; simp), h1], fun ha => ?_, fun older o newer hq hold ho => ?_⟩
    · obtain ⟨h4, h5⟩ := h2 ha
      exact ⟨h4, hs h5⟩
    · obtain ⟨h4, h5⟩ := h3 older o newer hq hold ho
      exact ⟨h4, hs h5⟩
  · obtain ⟨h1, h2, h3⟩ := hpass hn hh
    exact ⟨carriedAs_arbitrate h1, hs h2, h3⟩

theorem contentAccess_iff {ha : WordAddr} {be : Lanes} :
    contentAccess ha be = true ↔ windowOf ha.toNat = .line ∧ be &&& contentLanes (slotWordOf ha.toNat) ≠ 0 := by
  simp [contentAccess]

theorem commitAccess_line {ha : WordAddr} {be : Lanes} (h : commitAccess ha be = true) : windowOf ha.toNat = .line := by
  simp only [commitAccess, Bool.and_eq_true, beq_iff_eq] at h
  exact h.1

/-! ## What is left of the processor side -/

theorem endWithdrawn_ptp (s : State) : (endWithdrawn s).ptp = { s.ptp with carried := (endWithdrawn s).ptp.carried } := by
  unfold endWithdrawn
  split
  · split <;> rfl
  · rfl

theorem decideWrite_ptp (s : State) (a : Access) (gone : Bool) :
    (decideWrite s a gone).ptp = { s.ptp with carried := (decideWrite s a gone).ptp.carried } := by
  have carried (v : State) (hv : v.ptp = s.ptp) (lanes : Lanes) : (carry (commitActs v a) a lanes gone).ptp = { s.ptp with
      carried := (carry (commitActs v a) a lanes gone).ptp.carried } := by
    rw [carry_eq, State.withPtp_ptp, commitActs_ptp, hv]
  unfold decideWrite
  dsimp only
  split
  · exact carried s rfl _
  · split
    · refine carried _ ?_ _
      rfl
    · refine carried _ ?_ _
      rw [nearFullTest_ptp]
      rfl
    · rfl
    · exact carried s rfl _

/-- The state when the walker has seen a write of a line word and it has been decided (R6, R170). -/
def lineTaken (s : State) (a : Access) : State := decideWrite (structureSeen (unpresented s) a) a false

theorem lineTaken_decided (s : State) (a : Access) : decided (structureSeen (unpresented s) a) a false = lineTaken s a := by
  obtain ⟨-, c, hc, -, hw⟩ := takenAs_decideWrite (s := structureSeen (unpresented s) a) (a := a) (by rw [seen_ptp]; rfl)
  exact endWithdrawn_of_stays hc (by simp [hw])

theorem writes_lineTaken (s : State) (a : Access) : Writes [.rwk, .ptp, .ehu] s (lineTaken s a) :=
  ((writes_seen s a).mono (by decide)).step (writes_decideWrite _ a false) (by decide)

theorem lineTaken_ptp (s : State) (a : Access) : (arbitrate (lineTaken s a)).ptp =
    { s.ptp with carried := (arbitrate (lineTaken s a)).ptp.carried, presented := none } := by
  have hp := (arbitrate_ptp (lineTaken s a)).1
  rw [lineTaken, decideWrite_ptp, seen_ptp] at hp
  exact hp

theorem walkerSees_lineTaken (s : State) (a : Access) : walkerSees s a (arbitrate (lineTaken s a)) := by
  rw [walkerSees, arbitrate_rwk, lineTaken, (writes_decideWrite _ a false).rwk (by decide), structureSeen_rwk]
  rfl

/-- Settles O27. -/
theorem lineWritesDecided : Obligations.LineWritesDecided := by
  refine ⟨fun c a s hp hr hc => ?_, fun c a s hp hr hm hc => ?_, fun s a l gone hk hw hc => ?_, fun s a l w hk => ?_⟩
  · obtain ⟨hwin, hcon⟩ := contentAccess_iff.mp hc
    have he := exec_taken (.inl hp) hr
    rw [takeAccess_line hp.1 hwin] at he
    have hftu : (structureSeen (unpresented s) a).ftu = s.ftu := (writes_seen s a).ftu (by decide)
    have hehu : (structureSeen (unpresented s) a).ehu = s.ehu := (writes_seen s a).ehu (by decide)
    have hd := decidedWrite_congr hehu (seen_sru s a) hftu (decidedWrite_decided (gone := false) hwin hcon)
    rw [lineTaken_decided] at hd
    exact ⟨_, he, ((writes_lineTaken s a).mono (by decide)).onlyChanges_arbitrate (.inl (by simp)), walkerSees_lineTaken s a,
      decidedWrite_arbitrate hd, lineTaken_ptp s a⟩
  · have hwin := commitAccess_line hm
    have he := exec_taken (.inl hp) hr
    rw [takeAccess_line hp.1 hwin] at he
    have hnone : a.be &&& contentLanes (slotWordOf a.ha.toNat) = 0 := by simpa [contentAccess, hwin] using hc
    have hline : lineTaken s a = carry (commitActs (structureSeen (unpresented s) a) a) a a.be false :=
      decideWrite_no_content hnone false
    have hehu : (structureSeen (unpresented s) a).ehu = s.ehu := (writes_seen s a).ehu (by decide)
    obtain ⟨h1, h2⟩ := commitActs_marks (s := s) (v := structureSeen (unpresented s) a) hwin (by rw [hehu]) (by rw [hehu])
      (by rw [seen_sru])
    rw [hehu] at h1 h2
    have ht : (arbitrate (lineTaken s a)).ehu = (commitActs (structureSeen (unpresented s) a) a).ehu := by
      rw [arbitrate_ehu, hline]
      rfl
    refine ⟨_, he, (writes_lineTaken s a).onlyChanges_arbitrate (.inr ?_), walkerSees_lineTaken s a, ?_, lineTaken_ptp s a,
      fun hb => ?_, fun hb => ?_⟩
    · rw [hline]
      exact (commitActs_sru ..).trans (seen_sru s a)
    · rw [← lineTaken, hline]
      exact (carried_by_taking (s := s) ((commitActs_ptp ..).trans (seen_ptp s a))).1
    · rw [← lineTaken, ht, h1, h2.1 hm hb]
    · rw [← lineTaken, ht, h1, h2.2 (.inr hb)]
  · have ha := Acts.spillRetry hk rfl
    obtain ⟨hwin, hcon⟩ := contentAccess_iff.mp hc
    have hwr : Writes [.ptp, .ehu] s (decided s a gone) := (writes_decideWrite s a gone).step (writes_endWithdrawn _) (by decide)
    refine ⟨_, exec_of_acts ha, (hwr.mono (by decide)).onlyChanges (.inl (by simp)), decidedWrite_decided hwin hcon, ?_⟩
    have hp := endWithdrawn_ptp (decideWrite s a gone)
    rw [decideWrite_ptp] at hp
    exact hp
  · simp [exec, execSpillRetry, hk]

end Sys2Proof.Machine

/-! A processor access performed (R31, R37, R153, R161, R169 to R172, R186, R200, R204). -/

namespace Sys2Proof.Machine

open Sys2Proof.Config

/-! ## Completion (R169) -/

theorem completeCarried_eq {s : State} {acc : Access} {l : Lanes} {k : Stage} {gone : Bool}
    (h : s.ptp.carried = some ⟨acc, l, k, gone⟩) :
    completeCarried s = s.withPtp { s.ptp with carried := if gone then none else some ⟨acc, l, .complete, false⟩ } := by
  have hc : (s.withPtp { s.ptp with carried := s.ptp.carried.map (fun c => { c with stage := .complete }) }).ptp.carried =
      some ⟨acc, l, .complete, gone⟩ := by
    rw [State.withPtp_ptp, h]
    rfl
  rw [completeCarried]
  cases gone with
  | false => rw [endWithdrawn_of_stays hc (by simp), h]; rfl
  | true => rw [endWithdrawn_of_ends hc ⟨rfl, rfl⟩]; rfl

/-- While an access is carried, the port goes on with the arbiter alone (R169). -/
theorem goOn_of_carried {u : State} {c : Carried} (h : u.ptp.carried = some c) : goOn u = arbitrate u :=
  goOn_eq_arbitrate (.inl fun hr => by rw [hr.2.1] at h; cases h)

theorem readyHigh_goOn {u : State} {acc : Access} {l : Lanes} (h : u.ptp.carried = some ⟨acc, l, .complete, false⟩) :
    readyHigh (goOn u) = true := by
  rw [goOn_of_carried h, readyHigh, arbitrate_ptp_of_not_waiting (by rw [h]; simp), h]
  rfl

/-! ## The watchers of a write (R31, R153, R161, R170) -/

section
variable {s : State} {wa : Nat} {lanes : Lanes} {data : Word}

theorem watchers_ptp : (watchers s wa lanes data).ptp =
    { s.ptp with handovers := s.ptp.handovers ++ writeHandover wa (readWord s.mem wa) } := by
  have h1 : (guardUpdate s wa lanes data).ptp = s.ptp := (writes_guardUpdate s wa lanes data).ptp (by decide)
  have h2 : (staleMark (guardUpdate s wa lanes data) wa).ptp = s.ptp := h1
  unfold watchers
  dsimp only
  split <;> simp only [State.withPtp_ptp, h1, h2]

theorem watchers_ehu : (watchers s wa lanes data).ehu = (guardUpdate s wa lanes data).ehu := by
  unfold watchers
  dsimp only
  split <;> rfl

theorem watchers_hlt_line (h : windowOf wa = .line) : (watchers s wa lanes data).hlt = (staleMark s wa).hlt := by
  have h1 : (guardUpdate s wa lanes data).hlt = s.hlt := (writes_guardUpdate s wa lanes data).hlt (by decide)
  unfold watchers
  dsimp only
  rw [if_pos h]
  show (staleMark (guardUpdate s wa lanes data) wa).hlt = _
  rw [staleMark, State.withHlt_hlt, h1]
  rfl

theorem watchers_hlt_other (h : windowOf wa ≠ .line) : (watchers s wa lanes data).hlt = s.hlt := by
  unfold watchers
  dsimp only
  rw [if_neg h]
  exact (writes_guardUpdate s wa lanes data).hlt (by decide)

theorem guardUpdate_other (h : ¬(windowOf wa = .rundown ∧ (wa - rundownBase) % 2 = 1 ∧ lanes.getLsbD 0 = true)) :
    guardUpdate s wa lanes data = s := if_neg h

theorem guardUpdate_guarded (h : windowOf wa = .rundown ∧ (wa - rundownBase) % 2 = 1 ∧ lanes.getLsbD 0 = true) :
    guardUpdate s wa lanes data = s.withEhu (s.ehu.setGuard ((wa - rundownBase) / 2) (guardFlag data)) := if_pos h

end

theorem guardUpdate_ehu (s : State) (wa : Nat) (lanes : Lanes) (data : Word) :
    (guardUpdate s wa lanes data).ehu = { s.ehu with guardSet := (guardUpdate s wa lanes data).ehu.guardSet } := by
  unfold guardUpdate
  split <;> rfl

/-! ## What a write hands on (R161, R170, R186, R204) -/

section
variable {wa : Nat} {w : Word}

theorem writeHandover_card {c r : Nat} (hw : windowOf wa = .control) (hc : controlWordAt (4 * wa) = some (.card c r)) :
    writeHandover wa w = [.card c r] := by
  rw [writeHandover, hw]
  dsimp only
  rw [hc]

theorem writeHandover_setting {c : ControlWord} (hw : windowOf wa = .control) (hc : controlWordAt (4 * wa) = some c)
    (hn : ∀ i r, c ≠ .card i r) : writeHandover wa w = [.setting (4 * wa) w] := by
  rw [writeHandover, hw]
  dsimp only
  rw [hc]
  cases c with
  | card i r => exact absurd rfl (hn i r)
  | _ => rfl

theorem writeHandover_unassigned (hw : windowOf wa = .control) (hc : controlWordAt (4 * wa) = none) : writeHandover wa w = [] := by
  rw [writeHandover, hw]
  dsimp only
  rw [hc]

theorem writeHandover_consume : writeHandover consumeWord w = [.consume w] := rfl

theorem writeHandover_nothing (hw : windowOf wa = .rundown ∨ windowOf wa = .general ∨ windowOf wa = .line) : writeHandover wa w = [] := by
  rcases hw with hw | hw | hw <;> rw [writeHandover, hw]

end

/-! ## The word a read returns (R37, R171) -/

theorem laneOf_mergeLanes (mask : Lanes) (new old : Word) {k : Nat} (hk : k < 4) :
    laneOf (mergeLanes mask new old) k = if mask.getLsbD k then laneOf new k else laneOf old k := by
  rw [mergeLanes]
  interval_cases k
  exacts [laneOf_wordOf_zero .., laneOf_wordOf_one .., laneOf_wordOf_two .., laneOf_wordOf_three ..]

theorem laneOf_readWord (m : Memory) (wa : Nat) {k : Nat} (hk : k < 4) : laneOf (readWord m wa) k = readByte m (4 * wa + k) := by
  rw [readWord]
  interval_cases k
  exacts [laneOf_wordOf_zero .., laneOf_wordOf_one .., laneOf_wordOf_two .., laneOf_wordOf_three ..]

theorem overlay_of_mem {q : List HoldEntry} {wa : Nat} {e : HoldEntry} (he : e ∈ q) (hw : e.wa = wa)
    (hu : ∀ e' ∈ q, e'.wa = wa → e' = e) (w : Word) : overlay q wa w = mergeLanes e.mask e.data w := by
  cases hf : q.find? (fun x => x.wa == wa) with
  | none =>
    have := List.find?_eq_none.mp hf e he
    simp [hw] at this
  | some e' =>
    obtain rfl : e' = e := hu e' (List.mem_of_find?_eq_some hf) (by simpa using List.find?_some hf)
    rw [overlay, hf]

end Sys2Proof.Machine

/-! The statement on the accesses performed (R31, R37, R153, R161, R169 to R172, R186, R200, R204). -/

namespace Sys2Proof.Machine

open Sys2Proof.Config

/-! ## A write performed (R170) -/

/-- Memory has the write and the watchers of its window have seen it (R170). -/
def watched (s : State) (a : PortAccess) : State :=
  watchers ((freePort s).withMem (writeWord s.mem a.wa a.lanes a.data)) a.wa a.lanes a.data

/-- What a performed write leaves: the carried access complete, or gone if it was withdrawn (R169, R170). -/
def writePerformed (s : State) (a : PortAccess) (c : Option Carried) : State :=
  (watched s a).withPtp { s.ptp with
    carried := c, handovers := s.ptp.handovers ++ writeHandover a.wa (readWord (writeWord s.mem a.wa a.lanes a.data) a.wa) }

theorem watched_ptp (s : State) (a : PortAccess) : (watched s a).ptp = { s.ptp with
    handovers := s.ptp.handovers ++ writeHandover a.wa (readWord (writeWord s.mem a.wa a.lanes a.data) a.wa) } := watchers_ptp

theorem completeCarried_watched {s : State} {a : PortAccess} {acc : Access} {l : Lanes} {gone : Bool}
    (h : s.ptp.carried = some ⟨acc, l, .onPort, gone⟩) : completeCarried (watched s a) =
      writePerformed s a (if gone then none else some ⟨acc, l, .complete, false⟩) := by
  have hc : (watched s a).ptp.carried = some ⟨acc, l, .onPort, gone⟩ := by
    rw [watched_ptp]
    exact h
  rw [completeCarried_eq hc, watched_ptp]
  rfl

theorem writes_watched (s : State) (a : PortAccess) : Writes [.mem, .port, .ptp, .ehu, .hlt] s (watched s a) :=
  (((Writes.refl _ s).withPort _ (by decide)).withMem _ (by decide)).step (writes_watchers ..) (by decide)

theorem watched_sru (s : State) (a : PortAccess) : (watched s a).sru = s.sru := by
  have hg (u : State) : (guardUpdate u a.wa a.lanes a.data).sru = u.sru := by
    unfold guardUpdate
    split <;> rfl
  unfold watched watchers
  dsimp only
  split
  · exact hg _
  · exact hg _

theorem watched_mem (s : State) (a : PortAccess) : (watched s a).mem = writeWord s.mem a.wa a.lanes a.data :=
  (writes_watchers ((freePort s).withMem (writeWord s.mem a.wa a.lanes a.data)) a.wa a.lanes a.data).mem (by decide)

theorem watched_port (s : State) (a : PortAccess) : (watched s a).port = { s.port with busy := none } :=
  (writes_watchers ((freePort s).withMem (writeWord s.mem a.wa a.lanes a.data)) a.wa a.lanes a.data).port (by decide)

/-- A read has been performed: the word returned stands at the pins and what it hands on waits (R171, R200). -/
def readTaken (s : State) (a : PortAccess) (c : Carried) : State :=
  let w := overlay s.ehu.queue a.wa (readWord s.mem a.wa)
  (freePort s).withPtp { s.ptp with readData := w, handovers := s.ptp.handovers ++ readHandover c w }

theorem completeCarried_readTaken {s : State} {a : PortAccess} {acc : Access} {l : Lanes}
    (h : s.ptp.carried = some ⟨acc, l, .onPort, false⟩) :
    completeCarried (readTaken s a ⟨acc, l, .onPort, false⟩) =
      (freePort s).withPtp { (readTaken s a ⟨acc, l, .onPort, false⟩).ptp with carried := some ⟨acc, l, .complete, false⟩ } :=
  completeCarried_eq (s := readTaken s a ⟨acc, l, .onPort, false⟩) h

/-- Settles O50. -/
theorem accessPerformed : Obligations.AccessPerformed := by
  refine ⟨fun s a acc l gone hm hb ho hw hn hc => ?_, fun s a hm hb ho hw hn => ?_, fun s a acc l hb ho hw hn => ⟨fun hc => ?_, fun hc => ?_⟩,
    fun s a hb ho hw hn => ?_⟩
  · intro guarded
    have ha := Acts.processorWriteDone (inProgress_of hb ho hw) hn
    change Acts s .processorWriteDone true (completeCarried (watched s a)) at ha
    rw [completeCarried_watched hc] at ha
    have hmem : (writePerformed s a (if gone then none else some ⟨acc, l, .complete, false⟩)).mem = writeWord s.mem a.wa a.lanes a.data :=
      watched_mem s a
    have hehu : (writePerformed s a (if gone then none else some ⟨acc, l, .complete, false⟩)).ehu =
      (guardUpdate ((freePort s).withMem (writeWord s.mem a.wa a.lanes a.data)) a.wa a.lanes a.data).ehu := watchers_ehu
    refine ⟨_, exec_of_acts ha, ((writes_watched s a).withPtp _ (by decide)).onlyChanges (.inr (watched_sru s a)), wordWritten_of hm hmem,
      watched_port s a, fun hg => ?_, ⟨_, rfl, ?_⟩, ?_, fun hg i hi => ?_, fun hg => ?_, watchers_hlt_other, fun hl h => ?_⟩
    · subst hg
      exact readyHigh_goOn (acc := acc) (l := l) rfl
    · rw [hmem]
      refine ⟨fun c r h1 h2 => writeHandover_card h1 h2, fun c h1 h2 h3 => writeHandover_setting h1 h2 h3,
        fun h1 h2 => writeHandover_unassigned h1 h2, fun h => ?_, fun h => writeHandover_nothing h⟩
      rw [h]
      exact writeHandover_consume
    · rw [hehu]
      exact guardUpdate_ehu ..
    · rw [hehu, guardUpdate_guarded hg]
      exact setGuard_getLsbD _ _ hi
    · rw [hehu, guardUpdate_other hg]
      rfl
    · have hh : (writePerformed s a (if gone then none else some ⟨acc, l, .complete, false⟩)).hlt =
        (staleMark ((freePort s).withMem (writeWord s.mem a.wa a.lanes a.data)) a.wa).hlt := watchers_hlt_line hl
      rw [hh]
      cases h <;> rfl
  · have ha := Acts.processorWriteLeft (inProgress_of hb ho hw) hn
    obtain ⟨he, hc⟩ := ha.changes (bs := [.mem, .port]) (((Writes.refl _ s).withPort _ (by decide)).withMem _ (by decide)) (.inr rfl)
    exact ⟨_, he, hc, wordWritten_of hm (by rw [arbitrate_mem]; rfl)⟩
  · have ha := Acts.processorReadDone (inProgress_of hb ho hw) hn hc rfl
    change Acts s .processorReadDone true (completeCarried (readTaken s a ⟨acc, l, .onPort, false⟩)) at ha
    rw [completeCarried_readTaken hc] at ha
    refine ⟨_, exec_of_acts ha, ((writes_freePort s).mono (by decide)).withPtp _ (by decide) |>.onlyChanges (.inr rfl),
      readyHigh_goOn (acc := acc) (l := l) rfl, rfl, rfl, fun e he hwa hu k hk => ?_, fun hq => overlay_none hq⟩
    show laneOf (overlay s.ehu.queue a.wa (readWord s.mem a.wa)) k = _
    rw [overlay_of_mem he hwa hu, laneOf_mergeLanes _ _ _ hk, laneOf_readWord _ _ hk]
  · have ha := Acts.processorReadWithdrawn (inProgress_of hb ho hw) hn hc rfl
    rw [completeCarried_eq (s := freePort s) hc] at ha
    exact ⟨_, exec_of_acts ha, ((writes_freePort s).mono (by decide)).withPtp _ (by decide) |>.onlyChanges (.inr rfl), rfl, rfl⟩
  · have ha := Acts.processorReadLeft (inProgress_of hb ho hw) (.inl hn)
    obtain ⟨he, hc⟩ := ha.changes (writes_freePort s) (.inr rfl)
    exact ⟨_, he, hc, rfl⟩

end Sys2Proof.Machine

/-! The grants of the memory port and what each requester asks for (R173, R174, R193, R194, R203). -/

namespace Sys2Proof.Machine

open Sys2Proof.Config

/-! ## The cases of a grant (R173) -/

section
variable {s : State}

theorem grant_held (h : s.port.busy ≠ none ∨ s.ptp.handovers ≠ []) : grant s = s := by
  rcases grant_cases s with hg | ⟨hb, hh, -⟩
  · exact hg
  · exact absurd h (by simp [hb, hh])

theorem grant_processor {c : Carried} (hb : s.port.busy = none) (hh : s.ptp.handovers = []) (hc : processorWaits s = some c)
    (hf : s.port.fairness < 8 ∨ anyPartWaits s = false) : grant s = grantProcessor s c := by
  have hn : ¬((anyPartWaits s && decide (fairnessLimit ≤ s.port.fairness)) = true) := by
    rcases hf with hf | hf
    · simp [show fairnessLimit = 8 from rfl, hf]
    · simp [hf]
  rw [grant, if_neg (by simp [hb, hh]), if_neg hn, hc]

theorem grant_part (hb : s.port.busy = none) (hh : s.ptp.handovers = []) (ha : anyPartWaits s = true)
    (hf : 8 ≤ s.port.fairness ∨ processorWaits s = none) : grant s = grantPart s := by
  rw [grant, if_neg (by simp [hb, hh])]
  rcases hf with hf | hf
  · rw [if_pos (by simp [ha, show fairnessLimit = 8 from rfl, hf])]
  · rw [hf]
    exact ite_self _

theorem mem_requesters (r : Requester) : r ∈ requesters := by
  cases r with
  | hlt h => cases h <;> decide
  | _ => decide

theorem partWaits_false (h : anyPartWaits s = false) (r : Requester) : partWaits s r = false := by
  simpa using List.any_eq_false.mp h r (mem_requesters r)

theorem grant_idle (ha : anyPartWaits s = false) (hc : processorWaits s = none) : grant s = s := by
  have hg : grantPart s = s := by
    rw [grantPart, List.find?_eq_none.mpr fun r _ => by simp [partWaits_false ha r]]
  rw [grant, ha, hc, hg]
  simp

end

/-! ## The part requester that is served (R174) -/

/-- How far a requester lies behind the one last granted, in the cyclic order: the next one lies at 0 (R174). -/
def searchDistance (p r : Requester) : Nat := (requesterIndex r + 6 - requesterIndex p) % 7

theorem searchOrder_pairwise (p : Requester) : (searchOrder p).Pairwise fun r q => searchDistance p r ≤ searchDistance p q := by
  cases p with
  | hlt h => cases h <;> decide
  | _ => decide

theorem mem_searchOrder (p r : Requester) : r ∈ searchOrder p := by
  have hr := mem_requesters r
  rw [← List.take_append_drop (requesterIndex p + 1) requesters] at hr
  exact List.mem_append.mpr (List.mem_append.mp hr).symm

/-- The search finds the waiting requester that comes next after the one last granted (R174). -/
theorem search_finds {s : State} (h : anyPartWaits s = true) (p : Requester) : ∃ r, (searchOrder p).find? (partWaits s) = some r ∧
    partWaits s r = true ∧ ∀ q, partWaits s q = true → searchDistance p r ≤ searchDistance p q := by
  obtain ⟨q, -, hq⟩ := List.any_eq_true.mp h
  obtain ⟨r, hr⟩ := Option.isSome_iff_exists.mp (List.find?_isSome.mpr ⟨q, mem_searchOrder p q, hq⟩)
  obtain ⟨hw, before, after, happ, hb⟩ := List.find?_eq_some_iff_append.mp hr
  refine ⟨r, hr, hw, fun q hq => ?_⟩
  have hm := mem_searchOrder p q
  have ho := searchOrder_pairwise p
  rw [happ] at hm ho
  rcases List.mem_append.mp hm with hm | hm
  · exact absurd hq (by simpa [hq] using hb q hm)
  · rcases List.mem_cons.mp hm with rfl | hm
    · exact le_rfl
    · exact (List.pairwise_cons.mp (List.pairwise_append.mp ho).2.1).1 q hm

theorem partAccess_of_waits {s : State} {r : Requester} (h : partWaits s r = true) : ∃ a, partAccess s r = some a :=
  Option.isSome_iff_exists.mp (Bool.and_eq_true_iff.mp h).2

/-- The port once a part access has been granted (R174). -/
theorem grantPart_eq {s : State} {r : Requester} {a : PortAccess} (hr : (searchOrder s.port.pointer).find? (partWaits s) = some r)
    (ha : partAccess s r = some a) : grantPart s = if r = .sru ∧ s.sru.request = some .attention
      then (s.withPort ⟨some a, 0, r⟩).withSru { s.sru with fresh := 0, attnReq := false } else s.withPort ⟨some a, 0, r⟩ := by
  rw [grantPart, hr]
  dsimp only
  rw [ha]

/-- Nothing waits for a port that the arbiter has left free (R173). -/
theorem nothing_waits_of_granted {v : State} (hb : (grant v).port.busy = none) (hh : (grant v).ptp.handovers = []) :
    grant v = v ∧ processorWaits v = none ∧ anyPartWaits v = false := by
  by_cases hheld : v.port.busy ≠ none ∨ v.ptp.handovers ≠ []
  · rw [grant_held hheld] at hb hh
    simp [hb, hh] at hheld
  · simp only [not_or, not_not] at hheld
    obtain ⟨hvb, hvh⟩ := hheld
    have part_not (ha : anyPartWaits v = true) (hf : 8 ≤ v.port.fairness ∨ processorWaits v = none) : False := by
      obtain ⟨r, hr, hw, -⟩ := search_finds ha v.port.pointer
      obtain ⟨a, hacc⟩ := partAccess_of_waits hw
      rw [grant_part hvb hvh ha hf, grantPart_eq hr hacc] at hb
      split at hb <;> cases hb
    cases hc : processorWaits v with
    | some c =>
      by_cases hf : v.port.fairness < 8 ∨ anyPartWaits v = false
      · rw [grant_processor hvb hvh hc hf] at hb
        cases hb
      · simp only [not_or, not_lt, Bool.not_eq_false] at hf
        exact (part_not hf.2 (.inl hf.1)).elim
    | none =>
      cases ha : anyPartWaits v with
      | true => exact (part_not ha (.inr hc)).elim
      | false => exact ⟨grant_idle ha hc, rfl, rfl⟩

/-! ## The addresses asked for (R10, R152, R154, R160) -/

theorem walkReadAddr_eq (r : WalkRead) : walkReadAddr r = match r with
    | .entryWord i => 0x800 + 2 * i
    | .entryFlags i _ _ => 0x801 + 2 * i
    | .slotWord _ _ n _ => 0x4000 + 32 * n
    | .slotKind _ _ n _ _ => 0x4001 + 32 * n := by
  cases r <;> simp only [walkReadAddr, entryAddr, slotAddr, rundownBase, lineBase, slotWords] <;> omega

theorem rowReadAddr_eq (b : RowBuild) : rowReadAddr b = match b with
    | ⟨_, .slot n _ _, .header⟩ => 0x4001 + 32 * n
    | ⟨_, .slot n _ _, .text _ _ words⟩ => 0x4002 + 32 * n + words.length
    | ⟨_, .card c r, .header⟩ => 0x100 + 0x40 * (c - 1) + 0x10 * r
    | ⟨_, .card c r, .text _ _ words⟩ => 0x101 + 0x40 * (c - 1) + 0x10 * r + words.length := by
  obtain ⟨_, _ | _, _ | _⟩ := b <;> simp only [rowReadAddr, slotAddr, cardAddr, lineBase, slotWords] <;> omega

theorem ehuAccess_guardRead {s : State} (h : s.rst.phase = .windows ∧ s.rst.guardNext < 256) :
    ehuAccess s = some (partRead .ehu (0x801 + 2 * s.rst.guardNext)) := by
  rw [show 0x801 + 2 * s.rst.guardNext = entryAddr s.rst.guardNext 1 by simp only [entryAddr, rundownBase]; omega]
  exact if_pos h

theorem ehuAccess_release {s : State} (h : ¬(s.rst.phase = .windows ∧ s.rst.guardNext < 256)) : ehuAccess s =
    (oldestReleasing s.ehu.queue).map fun e => ⟨.part .ehu, true, e.wa, e.mask, e.data, false⟩ := by
  refine (if_neg h).trans ?_
  cases oldestReleasing s.ehu.queue <;> rfl

/-! ## The words of initialisation (R194) -/

theorem initialWord_beyond {i : Nat} (h : 160 ≤ i) : initialWord i = 0 := by
  unfold initialWord
  split
  · unfold controlWordAt
    rw [if_neg (by omega), if_neg (by omega), if_neg (by omega), if_neg (by omega), if_neg (by omega), if_neg (by omega),
      if_neg (by omega), if_neg (by omega)]
    split_ifs <;> rfl
  · rfl

/-- The words of R194, in the order of the window. -/
def initialWords : List Nat :=
  let general := [0, 40, 1, 2, 30, 48, 8192, 64, 256, 20, 20000, 0, 3, 2, 1, 0, 0, 0xFFF] ++ List.replicate 14 0
  let operator := [1, 3, 16, 0, 2, 400, 20, 0] ++ [0x10001, 0x10002, 0x10003, 0x10004, 0x10005, 0x10006, 0x10007, 0x10000]
  let presenter := [0, 3, 16, 1, 2, 400, 30, 0] ++ [0x10003, 0x20004, 0x20005, 0x10006, 0x10007, 0x20001, 0x20002, 0x10000]
  let curves := resetCurveA ++ List.replicate 15 0 ++ resetCurveB ++ List.replicate 15 0
  general ++ operator ++ presenter ++ curves ++ [1, 0, 0, 0].flatMap (fun source => [source, 12, 3, 4096, 10, 0, 0, 0])

/-- Thirty-two words of the window, from word `k` on, are as R194 gives them. -/
def GivenFrom (k : Nat) : Prop := ∀ i < 32, initialWord (k + i) = .ofNat 32 (initialWords.getD (k + i) 0)

theorem initialWord_given {i : Nat} (h : i < 160) : initialWord i = .ofNat 32 (initialWords.getD i 0) := by
  have h0 : GivenFrom 0 := by unfold GivenFrom; decide
  have h1 : GivenFrom 32 := by unfold GivenFrom; decide
  have h2 : GivenFrom 64 := by unfold GivenFrom; decide
  have h3 : GivenFrom 96 := by unfold GivenFrom; decide
  have h4 : GivenFrom 128 := by unfold GivenFrom; decide
  have hk (k : Nat) (hk : GivenFrom k) (hl : k ≤ i) (hu : i < k + 32) : initialWord i = .ofNat 32 (initialWords.getD i 0) := by
    have := hk (i - k) (by omega)
    rwa [Nat.add_sub_cancel' hl] at this
  rcases Nat.lt_or_ge i 32 with hi | hi
  · exact hk 0 h0 (by omega) hi
  rcases Nat.lt_or_ge i 64 with hj | hj
  · exact hk 32 h1 hi hj
  rcases Nat.lt_or_ge i 96 with hi | hi
  · exact hk 64 h2 hj hi
  rcases Nat.lt_or_ge i 128 with hj | hj
  · exact hk 96 h3 hi hj
  · exact hk 128 h4 hj h

/-! ## The obligation -/

/-- Settles O51. -/
theorem arbiterGrants : Obligations.ArbiterGrants := by
  refine ⟨fun s => ⟨grant_held, fun h => ?_, fun hb hh => ⟨fun c hc hf => ?_, fun ha hf => ?_, grant_idle⟩⟩, fun c s t h => ?_,
    fun u => ⟨rfl, (Writes.refl [] u).onlyChanges_arbitrate (.inr rfl), fun hb hh => ?_⟩, fun s => ⟨?_, fun h => ?_⟩,
    fun s => ⟨fun hg => ?_, fun hg hq => ?_, fun older e newer hg hq ho he => ?_⟩,
    fun s => ⟨fun h => ?_, fun h => ?_, fun h hr => ?_, fun r rest h hr => ⟨fun hw => ?_, fun hw => ?_⟩, fun h => ?_, fun h => ?_⟩,
    fun i hi => ?_, fun i hi => initialWord_beyond hi⟩
  · rw [clearFairness, h]
    rfl
  · rw [grant_processor hb hh hc hf]
    exact ⟨rfl, rfl⟩
  · obtain ⟨r, hr, hw, hmin⟩ := search_finds ha s.port.pointer
    obtain ⟨a, hacc⟩ := partAccess_of_waits hw
    rw [grant_part hb hh ha hf, grantPart_eq hr hacc]
    refine ⟨r, a, hw, hacc, by split <;> rfl, hmin, ?_, fun hn => ?_⟩
    · rintro rfl hq
      rw [if_pos ⟨rfl, hq⟩]
      exact ⟨sruAccess_attention hq hacc, rfl⟩
    · rw [if_neg (by rintro ⟨rfl, hq⟩; exact hn.elim (· rfl) (· hq))]
      rfl
  · rcases exec_inv h with rfl | ⟨b, u, -, rfl⟩
    · exact .inl rfl
    · exact .inr (by cases b <;> exact ⟨_, rfl⟩)
  · obtain ⟨hg, hp⟩ := nothing_waits_of_granted hb hh
    rw [arbitrate, hg]
    exact hp
  · cases hr : s.rwk.read with
    | none => rw [partAccess, hr]; rfl
    | some r =>
      rw [partAccess, hr, Option.map_some, walkReadAddr_eq]
      cases r <;> rfl
  · cases hb : (s.hlt.get h).build with
    | none => rw [partAccess, hb]; rfl
    | some b =>
      rw [partAccess, hb, Option.map_some, rowReadAddr_eq]
      obtain ⟨_, _ | _, _ | _⟩ := b <;> rfl
  · exact ehuAccess_guardRead hg
  · rw [partAccess, ehuAccess_release hg, oldestReleasing, List.find?_eq_none.mpr fun e he => by simpa using hq e he]
    rfl
  · have hf : oldestReleasing s.ehu.queue = some e := by
      rw [oldestReleasing, hq]
      exact List.find?_eq_some_iff_append.mpr ⟨by simp [he], older, newer, rfl, fun o hm => by simpa using ho o hm⟩
    rw [partAccess, ehuAccess_release hg, hf]
    rfl
  · rw [partAccess, sruAccess, h]
  · rw [partAccess, sruAccess, h]
    rfl
  · rw [partAccess, sruAccess, h, hr]
  · rw [partAccess, sruAccess, h, hr]
    exact if_pos hw
  · rw [partAccess, sruAccess, h, hr]
    exact if_neg (by omega)
  · rw [partAccess, sruAccess, h]
    rfl
  · rw [partAccess, sruAccess, h]
    rfl
  · exact initialWord_given hi

end Sys2Proof.Machine

/-! The messages to the heads: their check bytes, the order of the rows, and the digits of a TEST row (R138, R141, R152, R160, R162,
R164, R185). -/

namespace Sys2Proof.Machine

open Sys2Proof.Config

/-! ## The positions of a route (R152, R160, R162) -/

/-- The position a route's rows go out from (R152, R160). -/
def routeCentre (r : Route) : Nat := if (cardOf r.source).isSome then 0 else r.readRow

/-- The last position of a route (R152, R160). -/
def lastPosition (r : Route) : Nat := if (cardOf r.source).isSome then 3 else r.rows

theorem positionsOf_eq (r : Route) : positionsOf r = centreOut (routeCentre r) 0 (lastPosition r) := by
  unfold positionsOf routeCentre lastPosition
  split <;> rfl

theorem mem_positionsOf {r : Route} (h : r.readRow ≤ r.rows) {p : Nat} : p ∈ positionsOf r ↔ p ≤ lastPosition r := by
  have hc : routeCentre r ≤ lastPosition r := by
    unfold routeCentre lastPosition
    split <;> omega
  rw [positionsOf_eq, mem_centreOut (Nat.zero_le _) hc]
  omega

theorem pairwise_positionsOf (r : Route) :
    (positionsOf r).Pairwise (fun p q => centreDistance (routeCentre r) p < centreDistance (routeCentre r) q) := by
  rw [positionsOf_eq]
  exact pairwise_centreOut ..

/-! ## Check bytes (R138, R164) -/

theorem byteSum_append_singleton (body : List Byte) (k : Byte) : byteSum (body ++ [k]) = byteSum body + k := by
  simp [byteSum]

theorem byteSum_checkByte (body : List Byte) : byteSum (body ++ [checkByte body]) = 0 := by
  rw [byteSum_append_singleton]
  show byteSum body + (0 - byteSum body) = 0
  rw [add_sub_cancel]

/-! ## A ROW's bytes (R141, R185) -/

theorem rowKindByte_eq (kind : RowKind) (first : Bool) : BitVec.ofNat 8 (rowKindCode kind) ||| (bitByte first <<< 7) =
    BitVec.ofNat 8 (rowKindCode kind + 128 * flagCode first) := by
  cases kind <;> cases first <;> rfl

theorem rowMessage_slot (p n : Nat) (kind : RowKind) (first : Bool) (k : BuildStage) (style : Byte) (text : List Byte) :
    rowMessage ⟨p, .slot n kind first, k⟩ style text = rowBody p kind first style text := by
  rw [rowBody, rowKindByte_eq]
  rfl

theorem rowMessage_card (p c r : Nat) (k : BuildStage) (style : Byte) (text : List Byte) :
    rowMessage ⟨p, .card c r, k⟩ style text = rowBody p .text false style text := by
  rw [rowBody, rowKindByte_eq]
  rfl

/-! ## Decimal digits (R162) -/

/-- The number that decimal digits spell. -/
def digitsValue (ds : List Nat) : Nat := ds.foldl (fun v d => 10 * v + d) 0

theorem digitsValue_dropWhile (ds : List Nat) (n : Nat) :
    digitsValue (ds.dropWhile (· == 0) ++ [n]) = digitsValue (ds ++ [n]) := by
  induction ds with
  | nil => rfl
  | cons d rest ih =>
    rw [List.dropWhile_cons]
    split
    · next hd =>
      obtain rfl : d = 0 := by simpa using hd
      exact ih
    · rfl

theorem digitByte_toNat {d : Nat} (h : d < 10) : (BitVec.ofNat 8 (0x30 + d)).toNat = 0x30 + d := by
  rw [BitVec.toNat_ofNat]
  omega

/-- The digits of a number, the zeros at its front dropped (R162). -/
def decimalDigits (n : Nat) : List Nat :=
  [n / 10000 % 10, n / 1000 % 10, n / 100 % 10, n / 10 % 10].dropWhile (· == 0) ++ [n % 10]

theorem decimal_eq (n : Nat) : decimal n = (decimalDigits n).map fun d => .ofNat 8 (0x30 + d) := rfl

theorem decimalDigits_lt {n d : Nat} (h : d ∈ decimalDigits n) : d < 10 := by
  have ht : ∀ l : List Nat, (∀ x ∈ l, x < 10) → d ∈ l.dropWhile (· == 0) → d < 10 := fun l hl hd =>
    hl d ((List.dropWhile_suffix _).subset hd)
  rcases List.mem_append.mp h with h | h
  · refine ht _ (fun x hx => ?_) h
    simp only [List.mem_cons, List.not_mem_nil, or_false] at hx
    omega
  · rw [List.mem_singleton] at h
    omega

theorem digitsValue_decimalDigits {n : Nat} (h : n < 100000) : digitsValue (decimalDigits n) = n := by
  rw [decimalDigits, digitsValue_dropWhile]
  simp only [digitsValue, List.cons_append, List.nil_append, List.foldl_cons, List.foldl_nil]
  omega

theorem decimalDigits_head {n : Nat} (h : 1 < (decimalDigits n).length) : (decimalDigits n).head? ≠ some 0 := by
  unfold decimalDigits at h ⊢
  cases hd : [n / 10000 % 10, n / 1000 % 10, n / 100 % 10, n / 10 % 10].dropWhile (· == 0) with
  | nil => simp [hd] at h
  | cons d rest =>
    have hn := List.head?_dropWhile_not (· == 0) [n / 10000 % 10, n / 1000 % 10, n / 100 % 10, n / 10 % 10]
    rw [hd] at hn
    simpa using hn

theorem foldl_digitBytes {ds : List Nat} (h : ∀ d ∈ ds, d < 10) (v : Nat) :
    (ds.map fun d => BitVec.ofNat 8 (0x30 + d)).foldl (fun v d => 10 * v + (d.toNat - 0x30)) v = ds.foldl (fun v d => 10 * v + d) v := by
  induction ds generalizing v with
  | nil => rfl
  | cons d rest ih =>
    rw [List.forall_mem_cons] at h
    rw [List.map_cons, List.foldl_cons, List.foldl_cons, digitByte_toNat h.1, Nat.add_sub_cancel_left, ih h.2]

/-- The text of a number: its digits and nothing else, no zero before them (R162). -/
theorem decimal_spec {n : Nat} (h : n < 65536) : decimal n ≠ [] ∧ (∀ d ∈ decimal n, 0x30 ≤ d.toNat ∧ d.toNat ≤ 0x39) ∧
    (decimal n).foldl (fun v d => 10 * v + (d.toNat - 0x30)) 0 = n ∧ (1 < (decimal n).length → (decimal n).head? ≠ some 0x30) := by
  rw [decimal_eq]
  refine ⟨by simp [decimalDigits], fun b hb => ?_, ?_, fun hl hh => ?_⟩
  · obtain ⟨d, hd, rfl⟩ := List.mem_map.mp hb
    have := decimalDigits_lt hd
    rw [digitByte_toNat this]
    omega
  · rw [foldl_digitBytes fun d => decimalDigits_lt]
    exact digitsValue_decimalDigits (by omega)
  · rw [List.head?_map, Option.map_eq_some_iff] at hh
    obtain ⟨d, hd, he⟩ := hh
    have hlt := decimalDigits_lt (List.mem_of_head? hd)
    have hz := congrArg BitVec.toNat he
    rw [digitByte_toNat hlt] at hz
    obtain rfl : d = 0 := by simpa using hz
    exact decimalDigits_head (by simpa using hl) hd

end Sys2Proof.Machine

/-! The building of rows and the reads they wait for (R138, R141, R149, R152, R154, R160, R162, R164). -/

namespace Sys2Proof.Machine

open Sys2Proof.Config

/-! ## A message that begins on the line (R138, R164) -/

theorem enqueue_waits {x : Hlt} (m : HeadMsg) (h : x.sending ≠ none) : x.enqueue m = { x with queued := x.queued ++ [m] } := by
  obtain ⟨n, hn⟩ := Option.ne_none_iff_exists'.mp h
  rw [Hlt.enqueue, hn]
  rfl

theorem enqueue_begins {x : Hlt} (m : HeadMsg) (h : x.sending = none) : x.enqueue m = x.begin m := by
  rw [Hlt.enqueue, h]
  rfl

/-- A message begins on the line, its check byte right, or the complement of the right one when it is injected (R138, R164). -/
theorem begin_eq (x : Hlt) (m : HeadMsg) : ∃ k, x.begin m =
      { x with sending := some ⟨m.position, m.body ++ [k], m.position.isSome && x.inject != 0⟩ } ∧
    ((m.position.isSome && x.inject != 0) = false → byteSum (m.body ++ [k]) = 0) ∧
    ((m.position.isSome && x.inject != 0) = true → byteSum (m.body ++ [~~~k]) = 0) := by
  refine ⟨_, rfl, fun h => ?_, fun h => ?_⟩
  · rw [h]
    exact byteSum_checkByte m.body
  · rw [h, if_pos rfl, BitVec.not_not]
    exact byteSum_checkByte m.body

/-- A transmitter charged the bytes of a ROW (R152). -/
def charged (x : Hlt) (n : Nat) : Hlt := { x with budgetLeft := x.budgetLeft - n }

theorem queueRow_eq (x : Hlt) (p : Nat) (body : List Byte) :
    x.queueRow p body = Hlt.enqueue (charged x (body.length + 1)) ⟨some p, body⟩ := rfl

theorem markPosition_getElem? (view : List ViewEntry) (sent : Bool) (p q : Nat) :
    (markPosition view sent p)[q]? = (view[q]?).map (fun v => if q = p then { v with sent := sent } else v) := by
  rw [markPosition, List.getElem?_modify]
  cases view[q]? <;> simp [eq_comm]

/-! ## The rows of a frame, position by position (R152, R160, R162) -/

section
variable {rows : List Row} {frame : Half} {p : Nat} {rest : List Nat} {x : Hlt}

theorem buildRows_gap {v : ViewEntry} (hr : x.route.source = .live) (hv : x.view[p]? = some v) (hs : v.slot = none) :
    Hlt.buildRows rows frame (p :: rest) x = if 6 ≤ x.budgetLeft
      then Hlt.buildRows rows frame rest (Hlt.queueRow { x with view := markPosition x.view true p } p (rowBody p .gap false 0 []))
      else x.stopBuilding := by
  rw [Hlt.buildRows, hr]
  dsimp only
  rw [hv]
  dsimp only
  rw [hs]
  rfl

theorem buildRows_slot {v : ViewEntry} {n : Nat} (hr : x.route.source = .live) (hv : x.view[p]? = some v) (hs : v.slot = some n)
    {o : Option Row} (ho : (if x.prevTop + p < 0 then none else rows[(x.prevTop + p).toNat]?) = o) :
    Hlt.buildRows rows frame (p :: rest) x = { x with
      view := markPosition x.view true p, todo := rest
      build := some ⟨p, .slot n ((o.map (·.kind)).getD .text) (o.any (·.first)), .header⟩ } := by
  rw [Hlt.buildRows, hr]
  dsimp only
  rw [hv]
  dsimp only
  rw [hs, ← ho]

theorem buildRows_card {c : Nat} (hr : cardOf x.route.source = some c) : Hlt.buildRows rows frame (p :: rest) x =
    { x with view := markPosition x.view true p, todo := rest, build := some ⟨p, .card c p, .header⟩ } := by
  rw [Hlt.buildRows]
  cases hs : x.route.source <;> rw [hs] at hr <;> cases hr <;> rfl

theorem buildRows_test (hr : x.route.source = .test) : Hlt.buildRows rows frame (p :: rest) x =
    if 6 + (testText p frame).length ≤ x.budgetLeft
      then Hlt.buildRows rows frame rest (x.queueRow p (rowBody p .text false 0 (testText p frame))) else x.stopBuilding := by
  rw [Hlt.buildRows, hr]
  rfl

end

/-! ## A read for a ROW (R152, R154) -/

theorem readingHead_of {s : State} {a : PortAccess} {h : Head} (hb : s.port.busy = some a) (ho : a.owner = .part (.hlt h)) :
    readingHead s = some (h, a) := by
  simp [readingHead, hb, ho]

/-- The ROW that is whole goes to the line, and the building goes on (R152). -/
theorem finishRow_eq (x : Hlt) (rows : List Row) (frame : Half) (b : RowBuild) (style : Byte) (text : List Byte) :
    x.finishRow rows frame b style text = Hlt.buildRows rows frame x.todo
      (Hlt.queueRow { x with build := none } b.position (rowMessage b style text)) := by
  obtain ⟨p, src, k⟩ := b
  cases src with
  | slot n kind first =>
    rw [rowMessage_slot]
    rfl
  | card c r =>
    rw [rowMessage_card]
    rfl

/-- The length a row's first word gives (R152, R160). -/
def foundLength (b : RowBuild) (w : Word) : Nat :=
  match b.source with
  | .slot _ _ _ => min (laneOf w 1).toNat 120
  | .card _ _ => min (laneOf w 0).toNat 60

/-- The style a row's first word gives (R152, R160). -/
def foundStyle (b : RowBuild) (w : Word) : Byte :=
  match b.source with
  | .slot _ _ _ => laneOf w 3
  | .card _ _ => 0

theorem onRead_header {b : RowBuild} (h : b.stage = .header) (x : Hlt) (rows : List Row) (frame : Half) (w : Word) :
    x.onRead rows frame b w = if x.budgetLeft < 6 + foundLength b w
      then { x with view := markPosition x.view false b.position, todo := [], build := none }
      else if foundLength b w = 0 then x.finishRow rows frame b (foundStyle b w) []
      else { x with build := some { b with stage := .text (foundStyle b w) (foundLength b w) [] } } := by
  rw [Hlt.onRead, h]
  rfl

section
variable {x : Hlt} {rows : List Row} {frame : Half} {b : RowBuild} {w : Word}

theorem onRead_tooLong (hs : b.stage = .header) (hl : x.budgetLeft < 6 + foundLength b w) :
    x.onRead rows frame b w = { x with view := markPosition x.view false b.position, todo := [], build := none } := by
  rw [onRead_header hs, if_pos hl]

theorem onRead_fits (hs : b.stage = .header) (hl : 6 + foundLength b w ≤ x.budgetLeft) (hp : 0 < foundLength b w) :
    x.onRead rows frame b w = { x with build := some { b with stage := .text (foundStyle b w) (foundLength b w) [] } } := by
  rw [onRead_header hs, if_neg (Nat.not_lt.mpr hl), if_neg (Nat.pos_iff_ne_zero.mp hp)]

theorem onRead_empty (hs : b.stage = .header) (hl : 6 + foundLength b w ≤ x.budgetLeft) (hz : foundLength b w = 0) :
    x.onRead rows frame b w = Hlt.buildRows rows frame x.todo
      (Hlt.queueRow { x with build := none } b.position (rowMessage b (foundStyle b w) [])) := by
  rw [onRead_header hs, if_neg (Nat.not_lt.mpr hl), if_pos hz, finishRow_eq]

end

theorem onRead_text {b : RowBuild} {y : Byte} {m : Nat} {words : List Word} (h : b.stage = .text y m words) (x : Hlt)
    (rows : List Row) (frame : Half) (w : Word) : x.onRead rows frame b w = if m ≤ 4 * (words.length + 1)
      then x.finishRow rows frame b y (((words ++ [w]).flatMap bytesOf).take m)
      else { x with build := some { b with stage := .text y m (words ++ [w]) } } := by
  rw [Hlt.onRead, h]
  dsimp only
  rw [List.length_append]
  rfl

/-! ## The obligation -/

/-- Settles O47. -/
theorem rowsBuilt : Obligations.RowsBuilt := by
  refine ⟨fun r hr => ⟨fun p => mem_positionsOf hr, pairwise_positionsOf r⟩, fun rows frame p rest x v hr hv => ?_,
    fun rows frame p rest x c hc => buildRows_card hc, markPosition_getElem?, fun x p body => ⟨fun h => ?_, fun h => ?_⟩,
    fun frame rows p rest x hr => ?_, fun n hn => decimal_spec hn, fun frame rows x => rfl, fun s a h b hb ho hn hbd => ?_,
    fun s a h hb ho hn => ?_⟩
  · refine ⟨fun hs hl => ?_, fun hs hl => ?_, fun n r hs htop hrow => ?_, fun n hs hout => ?_⟩
    · rw [buildRows_gap hr hv hs, if_pos hl]
      rfl
    · rw [buildRows_gap hr hv hs, if_neg (by omega)]
      rfl
    · have ho : (if x.prevTop + p < 0 then none else rows[(x.prevTop + p).toNat]?) = some r := by
        rw [if_neg (by omega), hrow]
      rw [buildRows_slot hr hv hs ho]
      rfl
    · have ho : (if x.prevTop + p < 0 then none else rows[(x.prevTop + p).toNat]?) = none := by
        split
        · rfl
        · exact List.getElem?_eq_none (by omega)
      rw [buildRows_slot hr hv hs ho]
      rfl
  · exact enqueue_waits (x := charged x (body.length + 1)) ⟨some p, body⟩ h
  · have hs : (charged x (body.length + 1)).sending = none := h
    obtain ⟨k, he, h0, h1⟩ := begin_eq (charged x (body.length + 1)) ⟨some p, body⟩
    have hq := (queueRow_eq x p body).trans ((enqueue_begins _ hs).trans he)
    exact ⟨k, hq, fun hi => h0 (by simp [charged, hi]), fun hi => h1 (by simp [charged, hi])⟩
  · refine ⟨fun hl => ?_, fun hl => ?_⟩
    · rw [buildRows_test hr]
      exact if_pos hl
    · rw [buildRows_test hr]
      exact if_neg (Nat.not_le.mpr hl)
  · have ha := Acts.rowReadDone (readingHead_of hb ho) hn hbd
    obtain ⟨he, hc⟩ := ha.changes (bs := [.hlt, .port]) (((writes_freePort s).mono (by decide)).withHead _ _ (by decide)) (.inr rfl)
    refine ⟨_, he, hc, fun k hk => ?_, fun hs hl => ?_, fun hs hl hp => ?_, fun hs hl hz => ?_, fun y m words hs hl => ?_,
      fun y m words hs hl => ?_⟩
    · rw [arbitrate_hlt]
      exact Quad.get_set_ne _ _ hk
    all_goals rw [arbitrate_hlt, State.withHead_hlt, Quad.get_set]
    · exact onRead_tooLong hs hl
    · exact onRead_fits hs hl hp
    · exact onRead_empty hs hl hz
    · rw [onRead_text hs, if_neg (by omega)]
    · rw [onRead_text hs, if_pos hl]
      exact finishRow_eq ..
  · have ha := Acts.rowReadLeft (readingHead_of hb ho) (.inl hn)
    obtain ⟨he, hc⟩ := ha.changes (writes_freePort s) (.inr rfl)
    exact ⟨_, he, hc⟩

end Sys2Proof.Machine

/-! The work of a boundary at a transmitter, stage by stage (R30, R145, R148, R149, R156, R164). -/

namespace Sys2Proof.Machine

open Sys2Proof.Config

/-! ## The previous frame closed (R149, R157, R167) -/

/-- Positions put back to STALE, whatever their order (R149). -/
theorem markPositions_getElem? (back : List Nat) (view : List ViewEntry) (q : Nat) :
    (back.foldl (fun v p => markPosition v false p) view)[q]? =
      (view[q]?).map (fun v => { v with sent := v.sent && !back.contains q }) := by
  induction back generalizing view with
  | nil => simp
  | cons p rest ih =>
    rw [List.foldl_cons, ih, markPosition_getElem?]
    cases view[q]? with
    | none => rfl
    | some v =>
      by_cases hq : q = p
      · subst hq
        simp
      · simp [hq]

theorem close_view (x : Hlt) : x.close.view = closedView x := by
  refine List.ext_getElem? fun q => ?_
  have hb := markPositions_getElem? (x.queued.filterMap (·.position) ++ (x.build.map (·.position)).toList) x.view q
  have hz : (closedView x)[q]? = (x.view[q]?).map fun v => { v with
      sent := v.sent && !x.staleDue && !(x.queued.filterMap (·.position) ++ (x.build.map (·.position)).toList).contains q } := by
    rw [closedView, List.getElem?_map, List.getElem?_zipIdx, Option.map_map]
    simp only [Function.comp_def, Nat.zero_add]
  rw [hz, Hlt.close]
  dsimp only
  cases hs : x.staleDue with
  | false =>
    rw [if_neg (by simp), hb]
    simp
  | true =>
    rw [if_pos rfl, staleAll, List.getElem?_map, hb]
    cases x.view[q]? <;> simp

/-! ## What the stages make of the transmitter -/

/-- Step 2 at the transmitter: the route is in use, a change of it applied (R145). -/
def Hlt.load (x : Hlt) (r : Route) : Hlt := if routeChanges x.route r then x.changeRoute r else { x with route := r }

/-- Step 3 at the transmitter: an inject count written since the boundary before (R164). -/
def Hlt.setInject (x : Hlt) (written : Bool) (n : Nat) : Hlt := if written then { x with inject := n, injectLoaded := n } else x

/-- The lag stalls the head (R156). -/
abbrev Hlt.late (x : Hlt) (frame : Half) : Prop := x.state = .up ∧ x.route.stall < lagOf frame x

theorem load_route (x : Hlt) (r : Route) : (x.load r).route = r := by
  unfold Hlt.load
  split <;> rfl

theorem setInject_route (x : Hlt) (written : Bool) (n : Nat) : (x.setInject written n).route = x.route := by
  cases written <;> rfl

theorem formView_route (x : Hlt) (rows : List Row) (pos : Nat) : (x.formView rows pos).route = x.route := by
  unfold Hlt.formView
  split <;> rfl

/-- A message at the line touches nothing of the transmitter but the line (R138). -/
theorem enqueue_eq (x : Hlt) (m : HeadMsg) : x.enqueue m = { x with sending := (x.enqueue m).sending, queued := (x.enqueue m).queued } := by
  unfold Hlt.enqueue
  split <;> rfl

theorem enqueue_route (x : Hlt) (m : HeadMsg) : (x.enqueue m).route = x.route := by
  rw [enqueue_eq]

theorem buildRows_route (rows : List Row) (frame : Half) (ps : List Nat) (x : Hlt) : (Hlt.buildRows rows frame ps x).route = x.route := by
  induction ps generalizing x with
  | nil => rfl
  | cons p rest ih =>
    have hq (y : Hlt) (body : List Byte) : (y.queueRow p body).route = y.route := enqueue_route ..
    rw [Hlt.buildRows]
    split
    · rfl
    · dsimp only
      split
      · rw [ih, hq]
      · rfl
    · split
      · exact ih x
      · split
        · split
          · rw [ih, hq]
          · rfl
        · rfl
    all_goals rfl

theorem buildFrame_route (x : Hlt) (rows : List Row) (frame : Half) (pos : Nat) : (x.buildFrame rows frame pos).route = x.route := by
  unfold Hlt.buildFrame
  dsimp only
  split
  · rw [buildRows_route, enqueue_route]
  · rw [enqueue_route]

/-! ## The on-air list (R29, R30) -/

/-- The on-air list as the state stands (R29). -/
def onAirOf (s : State) : List OnAir := onAirList (liveRoutes s.hlt) s.sru.set.guardBand s.sce.active.rows (s.sce.pos / rowUnits)

theorem liveRoutes_set {q : Quad Hlt} {h : Head} {x y : Hlt} (hr : x.route = y.route) :
    liveRoutes (q.set h x) = liveRoutes (q.set h y) := by
  cases h <;> simp [liveRoutes, Quad.set, hr]

theorem Quad.set_get_self {α : Type} (q : Quad α) (h : Head) : q.set h (q.get h) = q := by
  cases h <;> rfl

theorem liveRoutes_set_self {q : Quad Hlt} {h : Head} {x : Hlt} (hr : x.route = (q.get h).route) : liveRoutes (q.set h x) = liveRoutes q := by
  rw [liveRoutes_set hr, Quad.set_get_self]

/-- A list that has just been computed changes nothing when it is computed again (R30). -/
theorem recompute_recompute (x : Ehu) (new : List OnAir) : (x.recompute new).recompute new = x.recompute new := by
  unfold Ehu.recompute
  simp

/-! ## The stages of the boundary -/

section
variable (s : State) (h : Head)

/-- The route changes (R145). -/
abbrev routeDiffers : Prop := routeChanges (s.hlt.get h).route (s.sru.set.routes.get h) = true

/-- The event of a route change: none from a head that is SILENT already (R145). -/
def routeEvents : List Event := if (s.hlt.get h).state = .silent then [] else [.headState h .silent 0]

/-- The state in which a route change has been applied, short of the on-air list (R145). -/
def routeChanged : State := raiseAll (s.withHead h ((s.hlt.get h).changeRoute (s.sru.set.routes.get h))) (routeEvents s h)

/-- The on-air list depends on the route that changes (R30). -/
abbrev routeOnAir : Prop := (s.hlt.get h).route.source = .live ∨ (s.sru.set.routes.get h).source = .live

variable {s h}

theorem loadRoute_changes (hc : routeDiffers s h) (hl : routeOnAir s h) : loadRoute s h = recomputeOnAir (routeChanged s h) := by
  refine (if_pos hc).trans ((if_pos hl).trans (congrArg recomputeOnAir ?_))
  unfold routeChanged routeEvents
  split <;> rfl

theorem loadRoute_offAir (hc : routeDiffers s h) (hl : ¬routeOnAir s h) : loadRoute s h = routeChanged s h := by
  refine (if_pos hc).trans ((if_neg hl).trans ?_)
  unfold routeChanged routeEvents
  split <;> rfl

theorem loadRoute_same (hc : ¬routeDiffers s h) : loadRoute s h = s.withHead h { s.hlt.get h with route := s.sru.set.routes.get h } :=
  if_neg hc

variable (s h)

theorem loadRoute_hlt : (loadRoute s h).hlt = s.hlt.set h ((s.hlt.get h).load (s.sru.set.routes.get h)) := by
  unfold Hlt.load
  by_cases hc : routeDiffers s h
  · rw [if_pos hc]
    by_cases hl : routeOnAir s h
    · rw [loadRoute_changes hc hl, recomputeOnAir, State.withEhu_hlt, routeChanged, raiseAll_hlt]
      rfl
    · rw [loadRoute_offAir hc hl, routeChanged, raiseAll_hlt]
      rfl
  · rw [if_neg hc, loadRoute_same hc]
    rfl

variable {s h}

theorem loadRoute_sru (hc : routeDiffers s h) : (loadRoute s h).sru = acceptAll s.sru s (routeEvents s h) := by
  by_cases hl : routeOnAir s h
  · rw [loadRoute_changes hc hl, recomputeOnAir, State.withEhu_sru, routeChanged, raiseAll_sru]
    rfl
  · rw [loadRoute_offAir hc hl, routeChanged, raiseAll_sru]
    rfl

theorem loadRoute_ehu (hc : routeDiffers s h) (hl : routeOnAir s h) :
    (loadRoute s h).ehu = s.ehu.recompute (onAirOf (loadRoute s h)) := by
  rw [loadRoute_changes hc hl, recomputeOnAir, State.withEhu_ehu, routeChanged, raiseAll_ehu]
  rfl

theorem loadRoute_ehu_kept (h' : ¬(routeDiffers s h ∧ routeOnAir s h)) : (loadRoute s h).ehu = s.ehu := by
  by_cases hc : routeDiffers s h
  · rw [loadRoute_offAir hc (fun hl => h' ⟨hc, hl⟩), routeChanged, raiseAll_ehu]
    rfl
  · rw [loadRoute_same hc]
    rfl

variable (s h)

theorem loadInject_hlt : (loadInject s h).hlt =
    s.hlt.set h ((s.hlt.get h).setInject (s.sru.set.injectWritten.get h) (s.sru.set.routes.get h).inject) := by
  unfold loadInject Hlt.setInject
  split
  · rfl
  · exact (Quad.set_get_self s.hlt h).symm

theorem loadInject_sru : (loadInject s h).sru =
    { s.sru with set := { s.sru.set with injectWritten := s.sru.set.injectWritten.set h false } } := by
  unfold loadInject
  split
  · rfl
  · next hn =>
    have hw : s.sru.set.injectWritten.set h false = s.sru.set.injectWritten := by
      rw [← Bool.eq_false_of_not_eq_true hn, Quad.set_get_self]
    rw [hw]

theorem judgeLag_late (hl : (s.hlt.get h).late s.ftu.frame) : judgeLag s h =
    raise (s.withHead h { s.hlt.get h with state := .stalled, view := staleAll (s.hlt.get h).view })
      (.headState h .stalled (lagOf s.ftu.frame (s.hlt.get h))) := if_pos hl

theorem judgeLag_inTime (hl : ¬(s.hlt.get h).late s.ftu.frame) : judgeLag s h = s := if_neg hl

theorem sendFrame_hlt : (sendFrame s h).hlt = s.hlt.set h
    (((s.hlt.get h).formView s.sce.active.rows s.sce.pos).buildFrame s.sce.active.rows s.ftu.frame s.sce.pos) := by
  unfold sendFrame
  dsimp only
  split
  · rw [recomputeOnAir]
    simp only [State.withHead_hlt, State.withEhu_hlt, Quad.get_set, Quad.set_set]
    rfl
  · simp only [State.withHead_hlt, Quad.get_set, Quad.set_set]
    rfl

theorem sendFrame_ehu : (sendFrame s h).ehu = if (s.hlt.get h).route.source = .live then s.ehu.recompute (onAirOf s) else s.ehu := by
  unfold sendFrame
  dsimp only
  split
  · rw [onAirOf, ← liveRoutes_set_self (formView_route (s.hlt.get h) s.sce.active.rows s.sce.pos)]
    rfl
  · rfl

end

end Sys2Proof.Machine

/-! The whole work of a boundary at a transmitter, block by block (R30, R145, R148, R149, R156, R164). -/

namespace Sys2Proof.Machine

open Sys2Proof.Config

section
variable (s : State) (h : Head)

/-- The previous frame has been closed, and its read is abandoned (R149, R172). -/
def frameClosed : State := orphanOf (s.withHead h (s.hlt.get h).close) (.hlt h)

/-- The route and an inject count written have been loaded (R145, R164). -/
def routeLoaded : State := loadInject (loadRoute (frameClosed s h) h) h

/-- The transmitter with its route and an inject count written loaded (R145, R164). -/
def loadedHead : Hlt := ((s.hlt.get h).close.load (s.sru.set.routes.get h)).setInject (s.sru.set.injectWritten.get h)
  (s.sru.set.routes.get h).inject

theorem writes_frameClosed : Writes [.hlt, .port] s (frameClosed s h) :=
  ((Writes.refl _ s).withHead h _ (by decide)).step (writes_orphanOf _ _) (by decide)

theorem writes_routeLoaded : Writes [.hlt, .ehu, .port, .sru] s (routeLoaded s h) :=
  (((writes_frameClosed s h).mono (by decide)).step (writes_loadRoute _ h) (by decide)).step (writes_loadInject _ h) (by decide)

theorem frameClosed_hlt : (frameClosed s h).hlt = s.hlt.set h (s.hlt.get h).close := (writes_orphanOf _ _).hlt (by decide)

theorem frameClosed_sru : (frameClosed s h).sru = s.sru := by
  rw [frameClosed, orphanOf]
  split <;> rfl

theorem frameClosed_get : (frameClosed s h).hlt.get h = (s.hlt.get h).close := by
  rw [frameClosed_hlt, Quad.get_set]

theorem routeDiffers_frameClosed : routeDiffers (frameClosed s h) h ↔ routeDiffers s h := by
  rw [routeDiffers, frameClosed_get, frameClosed_sru]
  rfl

theorem routeOnAir_frameClosed : routeOnAir (frameClosed s h) h ↔ routeOnAir s h := by
  rw [routeOnAir, frameClosed_get, frameClosed_sru]
  rfl

theorem routeEvents_frameClosed : routeEvents (frameClosed s h) h = routeEvents s h := by
  rw [routeEvents, frameClosed_get]
  rfl

theorem loadRoute_frameClosed_set : (loadRoute (frameClosed s h) h).sru.set = s.sru.set :=
  ((writes_loadRoute _ h).set (by decide)).trans (congrArg Sru.set (frameClosed_sru s h))

theorem loadRoute_frameClosed_hlt : (loadRoute (frameClosed s h) h).hlt =
    s.hlt.set h ((s.hlt.get h).close.load (s.sru.set.routes.get h)) := by
  rw [loadRoute_hlt, frameClosed_get, frameClosed_hlt, frameClosed_sru, Quad.set_set]

theorem routeLoaded_hlt : (routeLoaded s h).hlt = s.hlt.set h (loadedHead s h) := by
  rw [routeLoaded, loadInject_hlt, loadRoute_frameClosed_hlt, loadRoute_frameClosed_set, Quad.get_set, Quad.set_set]
  rfl

theorem routeLoaded_get : (routeLoaded s h).hlt.get h = loadedHead s h := by
  rw [routeLoaded_hlt, Quad.get_set]

theorem loadedHead_route : (loadedHead s h).route = s.sru.set.routes.get h := by
  rw [loadedHead, setInject_route, load_route]

theorem routeLoaded_set : (routeLoaded s h).sru.set = { s.sru.set with injectWritten := s.sru.set.injectWritten.set h false } := by
  rw [routeLoaded, loadInject_sru, loadRoute_frameClosed_set]

/-- The events of the route's loading (R145). -/
theorem routeLoaded_sru : (routeLoaded s h).sru = { acceptAll s.sru s (if routeDiffers s h then routeEvents s h else []) with
    set := { s.sru.set with injectWritten := s.sru.set.injectWritten.set h false } } := by
  have hf : (frameClosed s h).ftu = s.ftu := (writes_frameClosed s h).ftu (by decide)
  have hl : (loadRoute (frameClosed s h) h).sru = acceptAll s.sru s (if routeDiffers s h then routeEvents s h else []) := by
    by_cases hc : routeDiffers s h
    · rw [loadRoute_sru ((routeDiffers_frameClosed s h).mpr hc), if_pos hc, frameClosed_sru, routeEvents_frameClosed, acceptAll_congr hf]
    · rw [loadRoute_same (mt (routeDiffers_frameClosed s h).mp hc), if_neg hc]
      exact frameClosed_sru s h
  rw [routeLoaded, loadInject_sru, loadRoute_frameClosed_set, hl]

/-! ## The on-air list (R30) -/

/-- The on-air list with the route of this head loaded (R29, R30). -/
def airList : List OnAir := onAirList (liveRoutes (s.hlt.set h { s.hlt.get h with route := s.sru.set.routes.get h }))
  s.sru.set.guardBand s.sce.active.rows (s.sce.pos / rowUnits)

variable {s h}

theorem airList_of {u : State} {x : Hlt} (hh : u.hlt = s.hlt.set h x) (hr : x.route = s.sru.set.routes.get h)
    (hg : u.sru.set.guardBand = s.sru.set.guardBand) (hs : u.sce = s.sce) : onAirOf u = airList s h := by
  have hl := liveRoutes_set (q := s.hlt) (h := h) (x := x) (y := { s.hlt.get h with route := s.sru.set.routes.get h }) hr
  rw [onAirOf, hh, hl, hg, hs]
  rfl

theorem routeLoaded_ehu (hc : routeDiffers s h) (hl : routeOnAir s h) : (routeLoaded s h).ehu = s.ehu.recompute (airList s h) := by
  have he := loadRoute_ehu ((routeDiffers_frameClosed s h).mpr hc) ((routeOnAir_frameClosed s h).mpr hl)
  have hs : (loadRoute (frameClosed s h) h).sce = s.sce :=
    ((writes_loadRoute _ h).sce (by decide)).trans ((writes_frameClosed s h).sce (by decide))
  rw [airList_of (loadRoute_frameClosed_hlt s h) (load_route ..) (congrArg Settings.guardBand (loadRoute_frameClosed_set s h)) hs] at he
  rw [routeLoaded, (writes_loadInject _ h).ehu (by decide), he, (writes_frameClosed s h).ehu (by decide)]

theorem routeLoaded_ehu_kept (hc : ¬(routeDiffers s h ∧ routeOnAir s h)) : (routeLoaded s h).ehu = s.ehu := by
  have hk : ¬(routeDiffers (frameClosed s h) h ∧ routeOnAir (frameClosed s h) h) := by
    rw [routeDiffers_frameClosed, routeOnAir_frameClosed]
    exact hc
  rw [routeLoaded, (writes_loadInject _ h).ehu (by decide), loadRoute_ehu_kept hk, (writes_frameClosed s h).ehu (by decide)]

/-! ## The whole of it (R148) -/

variable (s h)

/-- The transmitter once the lag has been judged (R156). -/
def judgedHead : Hlt :=
  if (loadedHead s h).late s.ftu.frame then { loadedHead s h with state := .stalled, view := staleAll (loadedHead s h).view } else loadedHead s h

/-- The event of a stall (R156). -/
def stallEvents : List Event :=
  if (loadedHead s h).late s.ftu.frame then [.headState h .stalled (lagOf s.ftu.frame (loadedHead s h))] else []

theorem judgedHead_route : (judgedHead s h).route = s.sru.set.routes.get h := by
  unfold judgedHead
  split <;> exact loadedHead_route s h

/-- The lag has been judged (R156). -/
def lagJudged : State := judgeLag (routeLoaded s h) h

theorem writes_lagJudged : Writes [.hlt, .ehu, .port, .sru] s (lagJudged s h) :=
  (writes_routeLoaded s h).step (writes_judgeLag _ h) (by decide)

theorem lagJudged_eq : lagJudged s h = raiseAll ((routeLoaded s h).withHead h (judgedHead s h)) (stallEvents s h) := by
  have hf : (routeLoaded s h).ftu = s.ftu := (writes_routeLoaded s h).ftu (by decide)
  unfold judgedHead stallEvents
  by_cases hl : (loadedHead s h).late s.ftu.frame
  · rw [if_pos hl, if_pos hl, lagJudged, judgeLag_late _ _ (by rwa [routeLoaded_get, hf]), routeLoaded_get, hf]
    rfl
  · rw [if_neg hl, if_neg hl, lagJudged, judgeLag_inTime _ _ (by rwa [routeLoaded_get, hf]), ← routeLoaded_get, State.withHead,
      Quad.set_get_self]
    rfl

theorem lagJudged_hlt : (lagJudged s h).hlt = s.hlt.set h (judgedHead s h) := by
  rw [lagJudged_eq, raiseAll_hlt, State.withHead_hlt, routeLoaded_hlt, Quad.set_set]

theorem lagJudged_get : (lagJudged s h).hlt.get h = judgedHead s h := by
  rw [lagJudged_hlt, Quad.get_set]

/-- The transmitter as the boundary leaves a head that is not OFF (R148). -/
def framedHead : Hlt :=
  ((judgedHead s h).formView s.sce.active.rows s.sce.pos).buildFrame s.sce.active.rows s.ftu.frame s.sce.pos

theorem framedHead_route : (framedHead s h).route = s.sru.set.routes.get h := by
  rw [framedHead, buildFrame_route, formView_route, judgedHead_route]

variable {s h}

theorem hltFrame_off (ho : (s.sru.set.routes.get h).source = .off) : hltFrame s h = routeLoaded s h := by
  refine if_pos ?_
  show ((routeLoaded s h).hlt.get h).route.source = .off
  rw [routeLoaded_get, loadedHead_route, ho]

theorem hltFrame_on (ho : (s.sru.set.routes.get h).source ≠ .off) : hltFrame s h = sendFrame (lagJudged s h) h := by
  refine if_neg ?_
  show ((routeLoaded s h).hlt.get h).route.source ≠ .off
  rwa [routeLoaded_get, loadedHead_route]

theorem hltFrame_hlt_on (ho : (s.sru.set.routes.get h).source ≠ .off) : (hltFrame s h).hlt = s.hlt.set h (framedHead s h) := by
  have hw := writes_lagJudged s h
  rw [hltFrame_on ho, sendFrame_hlt, lagJudged_get, lagJudged_hlt, Quad.set_set, hw.sce (by decide), hw.ftu (by decide)]
  rfl

theorem hltFrame_hlt_off (ho : (s.sru.set.routes.get h).source = .off) : (hltFrame s h).hlt = s.hlt.set h (loadedHead s h) := by
  rw [hltFrame_off ho, routeLoaded_hlt]

variable (s h)

/-- The events of the boundary (R145, R156). -/
def frameEvents : List Event :=
  (if routeDiffers s h then routeEvents s h else []) ++ if (s.sru.set.routes.get h).source = .off then [] else stallEvents s h

theorem hltFrame_sru : (hltFrame s h).sru = { acceptAll s.sru s (frameEvents s h) with
    set := { s.sru.set with injectWritten := s.sru.set.injectWritten.set h false } } := by
  unfold frameEvents
  by_cases ho : (s.sru.set.routes.get h).source = .off
  · rw [hltFrame_off ho, if_pos ho, List.append_nil, routeLoaded_sru]
  · have hs (u : State) : (sendFrame u h).sru = u.sru := by
      unfold sendFrame
      dsimp only
      split <;> rfl
    have hf : ((routeLoaded s h).withHead h (judgedHead s h)).ftu = s.ftu := (writes_routeLoaded s h).ftu (by decide)
    rw [hltFrame_on ho, if_neg ho, hs, lagJudged_eq, raiseAll_sru, State.withHead_sru, routeLoaded_sru, acceptAll_congr hf,
      acceptAll_append, acceptAll_set]

/-- The on-air list is that of the routes now in use when the head is or was LIVE (R30). -/
theorem hltFrame_onAir (hl : routeOnAir s h) : (hltFrame s h).ehu = s.ehu.recompute (onAirOf (hltFrame s h)) := by
  have hw := writes_hltFrame s h
  have hg : (hltFrame s h).sru.set.guardBand = s.sru.set.guardBand := by rw [hltFrame_sru]
  have he (hlive : (s.sru.set.routes.get h).source ≠ .live) : (routeLoaded s h).ehu = s.ehu.recompute (airList s h) := by
    have hold := hl.resolve_right hlive
    refine routeLoaded_ehu ?_ hl
    simp [routeDiffers, routeChanges, hold, Ne.symm hlive]
  by_cases ho : (s.sru.set.routes.get h).source = .off
  · rw [airList_of (hltFrame_hlt_off ho) (loadedHead_route s h) hg (hw.sce (by decide)), hltFrame_off ho]
    exact he (by simp [ho])
  · rw [airList_of (hltFrame_hlt_on ho) (framedHead_route s h) hg (hw.sce (by decide)), hltFrame_on ho, sendFrame_ehu, lagJudged_get,
      judgedHead_route]
    have hj : (lagJudged s h).ehu = (routeLoaded s h).ehu := (writes_judgeLag _ h).ehu (by decide)
    have hjset : (lagJudged s h).sru.set.guardBand = s.sru.set.guardBand := by
      rw [lagJudged, (writes_judgeLag _ h).set (by decide), routeLoaded_set]
    rw [airList_of (lagJudged_hlt s h) (judgedHead_route s h) hjset ((writes_lagJudged s h).sce (by decide)), hj]
    split
    · by_cases hc : routeDiffers s h
      · rw [routeLoaded_ehu hc hl, recompute_recompute]
      · rw [routeLoaded_ehu_kept fun hn => hc hn.1]
    · next hlive => exact he hlive

theorem hltFrame_ehu_kept (hl : ¬routeOnAir s h) : (hltFrame s h).ehu = s.ehu := by
  by_cases ho : (s.sru.set.routes.get h).source = .off
  · rw [hltFrame_off ho, routeLoaded_ehu_kept fun hn => hl hn.2]
  · rw [hltFrame_on ho, sendFrame_ehu, lagJudged_get, judgedHead_route, if_neg fun hn => hl (.inr hn), lagJudged,
      (writes_judgeLag _ h).ehu (by decide), routeLoaded_ehu_kept fun hn => hl hn.2]

theorem hltFrame_port : (hltFrame s h).port = (frameClosed s h).port := by
  have hr : (routeLoaded s h).port = (frameClosed s h).port :=
    ((writes_loadInject _ h).port (by decide)).trans ((writes_loadRoute _ h).port (by decide))
  by_cases ho : (s.sru.set.routes.get h).source = .off
  · rw [hltFrame_off ho, hr]
  · rw [hltFrame_on ho, (writes_sendFrame _ h).port (by decide), lagJudged, (writes_judgeLag _ h).port (by decide), hr]

end

end Sys2Proof.Machine

/-! The statement on a boundary at a transmitter (R30, R140, R145, R147 to R152, R155 to R157, R163, R164, R167, R185). -/

namespace Sys2Proof.Machine

open Sys2Proof.Config

/-! ## What the loading of a route leaves of the transmitter (R145, R149, R155, R156) -/

theorem routeChanges_iff (old new : Route) : routeChanges old new = true ↔
    old.source ≠ new.source ∨ old.rows ≠ new.rows ∨ old.readRow ≠ new.readRow ∨ old.mirror ≠ new.mirror := by
  simp [routeChanges, or_assoc]

theorem isCard_iff (c : Source) : (cardOf c).isSome = true ↔ c = .card1 ∨ c = .card2 ∨ c = .card3 := by
  cases c <;> decide

/-- A transmitter at the beginning of a frame, with this view, this state and these copies of its head's ACKs (R148). -/
def begunHead (old : Hlt) (r : Route) (written : Bool) (view : List ViewEntry) (state : HeadState) (ack : Option Half)
    (rejected : Option Byte) : Hlt :=
  { old with
    route := r, view := view, staleDue := false, state := state, todo := [], build := none, queued := []
    lastAck := ack, rejected := rejected
    inject := if written then r.inject else old.inject
    injectLoaded := if written then r.inject else old.injectLoaded }

section
variable {s : State} {h : Head}

theorem loadedHead_differs (hc : routeDiffers s h) : loadedHead s h = begunHead (s.hlt.get h) (s.sru.set.routes.get h)
    (s.sru.set.injectWritten.get h)
    (if (cardOf (s.sru.set.routes.get h).source).isSome then List.replicate 4 ⟨none, false⟩ else staleAll (closedView (s.hlt.get h)))
    .silent none none := by
  have hl : (s.hlt.get h).close.load (s.sru.set.routes.get h) = (s.hlt.get h).close.changeRoute (s.sru.set.routes.get h) := if_pos hc
  rw [loadedHead, hl, Hlt.changeRoute, close_view]
  cases s.sru.set.injectWritten.get h <;> rfl

theorem loadedHead_same (hc : ¬routeDiffers s h) : loadedHead s h = begunHead (s.hlt.get h) (s.sru.set.routes.get h)
    (s.sru.set.injectWritten.get h) (closedView (s.hlt.get h)) (s.hlt.get h).state (s.hlt.get h).lastAck (s.hlt.get h).rejected := by
  have hl : (s.hlt.get h).close.load (s.sru.set.routes.get h) = { (s.hlt.get h).close with route := s.sru.set.routes.get h } :=
    if_neg hc
  rw [loadedHead, hl, ← close_view]
  cases s.sru.set.injectWritten.get h <;> rfl

theorem late_same (hc : ¬routeDiffers s h) : (loadedHead s h).late s.ftu.frame ↔
    (s.hlt.get h).state = .up ∧ (s.sru.set.routes.get h).stall < lagOf s.ftu.frame (s.hlt.get h) := by
  rw [loadedHead_same hc]
  rfl

theorem not_late_differs (hc : routeDiffers s h) : ¬(loadedHead s h).late s.ftu.frame := by
  rw [loadedHead_differs hc]
  exact fun hn => nomatch hn.1

theorem judgedHead_inTime (hl : ¬(loadedHead s h).late s.ftu.frame) : judgedHead s h = loadedHead s h := if_neg hl

theorem judgedHead_late (hc : ¬routeDiffers s h) (hl : (loadedHead s h).late s.ftu.frame) : judgedHead s h =
    begunHead (s.hlt.get h) (s.sru.set.routes.get h) (s.sru.set.injectWritten.get h) (staleAll (closedView (s.hlt.get h))) .stalled
      (s.hlt.get h).lastAck (s.hlt.get h).rejected := by
  rw [judgedHead, if_pos hl, loadedHead_same hc]
  rfl

end

/-! ## The FRAME and its rows (R140, R148, R152, R185) -/

theorem frameBody_eq (frame : Half) (r : Route) (pos : Nat) : frameBody frame r pos =
    [0xF1, 12] ++ bytesOfHalf frame ++ bytesOfHalf (.ofInt 16 (if r.source = .live then (pos / 4096 : Nat) - (r.readRow : Int) else 0)) ++
      bytesOfHalf (.ofNat 16 (if r.source = .live then pos % 4096 else 0)) ++
      [.ofNat 8 (if r.source = .card1 ∨ r.source = .card2 ∨ r.source = .card3 then 0 else r.readRow),
        .ofNat 8 (if r.source = .card1 ∨ r.source = .card2 ∨ r.source = .card3 then 4 else r.rows),
        .ofNat 8 (flagCode r.mirror + (if r.source = .card1 ∨ r.source = .card2 ∨ r.source = .card3 then 2 else 0) +
          (if r.source = .test then 4 else 0))] := by
  have hf : frameFlags r = .ofNat 8 (flagCode r.mirror + (if r.source = .card1 ∨ r.source = .card2 ∨ r.source = .card3 then 2 else 0) +
      (if r.source = .test then 4 else 0)) := by
    unfold frameFlags
    generalize r.source = source, r.mirror = mirror
    cases source <;> cases mirror <;> rfl
  rw [frameBody, hf]
  simp only [isCard_iff, beq_iff_eq]
  rfl

/-- The top index of a frame, 0 for a head that is not LIVE (R140, R147). -/
def frameTop (r : Route) (pos : Nat) : Int := if r.source = .live then (pos / 4096 : Nat) - (r.readRow : Int) else 0

/-- The transmitter when the FRAME is about to be sent (R147, R148, R150). -/
def framing (x : Hlt) (rows : List Row) (pos : Nat) : Hlt := { x with
  view := if x.route.source = .live then shiftView rows x.view x.route.rows x.prevTop (frameTop x.route pos) else x.view
  prevTop := frameTop x.route pos
  budgetLeft := x.route.budget - 12 }

theorem formView_framing (x : Hlt) (rows : List Row) (pos : Nat) :
    { x.formView rows pos with budgetLeft := (x.formView rows pos).route.budget - frameCost } = framing x rows pos := by
  by_cases hl : x.route.source = .live
  · have ht : topIndex pos x.route.readRow = frameTop x.route pos := (if_pos hl).symm
    rw [framing, if_pos hl, Hlt.formView, if_pos hl, ← ht]
    rfl
  · have ht : 0 = frameTop x.route pos := (if_neg hl).symm
    rw [framing, if_neg hl, Hlt.formView, if_neg hl, ← ht]
    rfl

/-- The transmitter once its FRAME is on the line or waits for it (R138, R140). -/
def frameSent (x : Hlt) (rows : List Row) (frame : Half) (pos : Nat) : Hlt :=
  (framing x rows pos).enqueue ⟨none, frameBody frame x.route pos⟩

/-- The FRAME is sent and, in state UP, the rows of the positions due are built (R148, R152). -/
theorem buildFrame_eq (x : Hlt) (rows : List Row) (frame : Half) (pos : Nat) : (x.formView rows pos).buildFrame rows frame pos =
    if x.state = .up then Hlt.buildRows rows frame (framing x rows pos).stalePositions (frameSent x rows frame pos)
    else frameSent x rows frame pos := by
  have hr : (x.formView rows pos).route = x.route := formView_route ..
  have hy : frameSent x rows frame pos = { framing x rows pos with
      sending := (frameSent x rows frame pos).sending, queued := (frameSent x rows frame pos).queued } := enqueue_eq ..
  have hs : (frameSent x rows frame pos).state = x.state := by rw [hy]; rfl
  have hp : (frameSent x rows frame pos).stalePositions = (framing x rows pos).stalePositions := by rw [hy]; rfl
  rw [Hlt.buildFrame, formView_framing, hr, ← frameSent, hs, hp]

/-! ## The arbiter afterwards -/

theorem eventsTaken_arbitrate {s u : State} {es : List Event} {x : Settings} (hf : u.ftu.frame = s.ftu.frame)
    (ht : u.ftu.tick = s.ftu.tick) (h : u.sru = { acceptAll s.sru s es with set := x }) : eventsTaken es s (arbitrate u) := by
  have hs := arbitrate_sruIs u
  have ha : acceptAll s.sru (arbitrate u) es = acceptAll s.sru s es := by
    rw [acceptAll, acceptAll, arbitrate_ftu, hf, ht]
  have hx : (arbitrate u).sru.set = x := by
    rw [arbitrate_sru_set, h]
  rw [h] at hs
  rw [eventsTaken, ha, hx]
  exact hs

theorem arbitrate_busy_some {u : State} {a : PortAccess} (hb : u.port.busy = some a) : (arbitrate u).port.busy = some a := by
  rw [(arbitrate_portKept u (by simp [hb])).1]
  exact hb

/-! ## The obligation -/

/-- The boundary has been taken by the transmitter (R148). -/
def frameTaking (s : State) (h : Head) : State := s.withFtu { s.ftu with due := { s.ftu.due with hlt := s.ftu.due.hlt.set h false } }

theorem hltFrame_others {s : State} {h k : Head} (hk : k ≠ h) : (hltFrame s h).hlt.get k = s.hlt.get k := by
  by_cases ho : (s.sru.set.routes.get h).source = .off
  · rw [hltFrame_hlt_off ho, Quad.get_set_ne _ _ hk]
  · rw [hltFrame_hlt_on ho, Quad.get_set_ne _ _ hk]

theorem hltFrame_port_busy {s : State} {h : Head} {a : PortAccess} (hb : s.port.busy = some a) :
    (hltFrame s h).port.busy = some (if a.owner = .part (.hlt h) then { a with orphan := true } else a) := by
  rw [hltFrame_port, frameClosed, orphanOf_port, State.withHead_port, hb]
  rfl

/-- The transmitter as R145 and R156 leave it before its FRAME: an OFF head is not judged (R148). -/
def startedHead (s : State) (h : Head) : Hlt :=
  if (s.sru.set.routes.get h).source = .off then loadedHead s h else judgedHead s h

/-- The boundary stalls the head (R145, R156). -/
def stallsNow (s : State) (h : Head) : Prop :=
  ¬routeDiffers s h ∧ (s.sru.set.routes.get h).source ≠ .off ∧ (loadedHead s h).late s.ftu.frame

section
variable {s : State} {h : Head}

theorem stallsNow_iff : stallsNow s h ↔ ¬routeDiffers s h ∧ (s.hlt.get h).state = .up ∧ (s.sru.set.routes.get h).source ≠ .off ∧
    (s.sru.set.routes.get h).stall < lagOf s.ftu.frame (s.hlt.get h) := by
  refine and_congr_right fun hc => ?_
  rw [late_same hc]
  exact and_left_comm

theorem startedHead_differs (hc : routeDiffers s h) : startedHead s h = loadedHead s h := by
  rw [startedHead, judgedHead_inTime (not_late_differs hc), ite_self]

theorem startedHead_kept (hc : ¬routeDiffers s h) (hn : ¬stallsNow s h) : startedHead s h = loadedHead s h := by
  unfold startedHead
  split
  · rfl
  · next ho => exact judgedHead_inTime fun hl => hn ⟨hc, ho, hl⟩

theorem startedHead_stalls (hs : stallsNow s h) : startedHead s h = judgedHead s h := if_neg hs.2.1

theorem startedHead_eq {changes stalls : Prop} {_ : Decidable changes} {_ : Decidable stalls} (hc : routeDiffers s h ↔ changes)
    (hs : stallsNow s h ↔ stalls) : startedHead s h =
      begunHead (s.hlt.get h) (s.sru.set.routes.get h) (s.sru.set.injectWritten.get h)
        (if changes ∧ (cardOf (s.sru.set.routes.get h).source).isSome = true then List.replicate 4 ⟨none, false⟩
          else if changes ∨ stalls then staleAll (closedView (s.hlt.get h)) else closedView (s.hlt.get h))
        (if changes then .silent else if stalls then .stalled else (s.hlt.get h).state)
        (if changes then none else (s.hlt.get h).lastAck) (if changes then none else (s.hlt.get h).rejected) := by
  by_cases hch : changes
  · have hd := hc.mpr hch
    rw [startedHead_differs hd, loadedHead_differs hd]
    simp [hch]
  · have hd := mt hc.mp hch
    by_cases hst : stalls
    · rw [startedHead_stalls (hs.mpr hst), judgedHead_late hd (hs.mpr hst).2.2]
      simp [hch, hst]
    · rw [startedHead_kept hd (mt hs.mp hst), loadedHead_same hd]
      simp [hch, hst]

theorem frameEvents_differs (hc : routeDiffers s h) : frameEvents s h = routeEvents s h := by
  rw [frameEvents, if_pos hc, stallEvents, if_neg (not_late_differs hc), ite_self, List.append_nil]

theorem routeEvents_silent (hq : (s.hlt.get h).state = .silent) : routeEvents s h = [] := if_pos hq

theorem routeEvents_other (hq : (s.hlt.get h).state ≠ .silent) : routeEvents s h = [.headState h .silent 0] := if_neg hq

theorem frameEvents_stalls (hs : stallsNow s h) : frameEvents s h = [.headState h .stalled (lagOf s.ftu.frame (s.hlt.get h))] := by
  obtain ⟨hc, ho, hl⟩ := hs
  have hg : lagOf s.ftu.frame (loadedHead s h) = lagOf s.ftu.frame (s.hlt.get h) := by
    rw [loadedHead_same hc]
    rfl
  rw [frameEvents, if_neg hc, if_neg ho, stallEvents, if_pos hl, hg]
  rfl

theorem frameEvents_kept (hc : ¬routeDiffers s h) (hn : ¬stallsNow s h) : frameEvents s h = [] := by
  rw [frameEvents, if_neg hc, List.nil_append]
  split
  · rfl
  · next ho => exact if_neg fun hl => hn ⟨hc, ho, hl⟩

end

theorem hltFrame_get (s : State) (h : Head) : (hltFrame s h).hlt.get h = if (s.sru.set.routes.get h).source = .off
    then startedHead s h
    else ((startedHead s h).formView s.sce.active.rows s.sce.pos).buildFrame s.sce.active.rows s.ftu.frame s.sce.pos := by
  unfold startedHead
  split
  · next ho => rw [hltFrame_hlt_off ho, Quad.get_set]
  · next ho =>
    rw [hltFrame_hlt_on ho, Quad.get_set]
    rfl

/-- Settles O45. -/
theorem headFrameSent : Obligations.HeadFrameSent := by
  intro s h hd hs old r rows changes lag stalls state card top fraction body closed view positions loaded
  have ha := Acts.hltFrame h hd hs
  change Acts s (.hltFrame h) false (hltFrame (frameTaking s h) h) at ha
  have hw := writes_hltFrame (frameTaking s h) h
  obtain ⟨he, ho⟩ := ha.changes (bs := [.hlt, .ftu, .ehu, .sru, .port])
    (((Writes.refl _ s).withFtu _ (by decide)).step hw (by decide)) (.inl (by decide))
  have hftu : (hltFrame (frameTaking s h) h).ftu = (frameTaking s h).ftu := hw.ftu (by decide)
  have hset := hltFrame_sru (frameTaking s h) h
  have hev : eventsTaken (frameEvents (frameTaking s h) h) s (arbitrate (hltFrame (frameTaking s h) h)) :=
    eventsTaken_arbitrate (by rw [hftu]; rfl) (by rw [hftu]; rfl) hset
  have hdiff : routeDiffers (frameTaking s h) h ↔ changes := routeChanges_iff old.route r
  have hstall : stallsNow (frameTaking s h) h ↔ stalls := stallsNow_iff.trans (and_congr_left' (not_congr hdiff))
  have hstarted : startedHead (frameTaking s h) h = loaded := by
    rw [startedHead_eq hdiff hstall]
    simp only [loaded, closed, card, ← isCard_iff]
    rfl
  have hair : routeOnAir (frameTaking s h) h ↔ r.source = .live ∨ old.route.source = .live := or_comm
  have hget := hltFrame_get (frameTaking s h) h
  rw [hstarted] at hget
  refine ⟨_, he, ho, fun k hk => ?_, ?_, ?_, fun hc hn => ?_, fun hst => ?_, fun hcn hst => ?_, fun hl => ?_, fun hl hl' => ?_,
    fun a hb => ?_, fun hoff => ?_, fun hon => ?_⟩
  · rw [arbitrate_hlt]
    exact hltFrame_others hk
  · rw [arbitrate_ftu, hftu]
    rfl
  · rw [arbitrate_sru_set, hset]
    rfl
  · rwa [frameEvents_differs (hdiff.mpr hc), routeEvents_other (s := frameTaking s h) hn] at hev
  · rwa [frameEvents_stalls (hstall.mpr hst)] at hev
  · by_cases hc : changes
    · rwa [frameEvents_differs (hdiff.mpr hc), routeEvents_silent (s := frameTaking s h) (not_not.mp fun hn => hcn ⟨hc, hn⟩)] at hev
    · rwa [frameEvents_kept (mt hdiff.mp hc) (mt hstall.mp hst)] at hev
  · rw [arbitrate_ehu, hltFrame_onAir _ _ (hair.mpr hl), onAirOf, hset, hw.sce (by decide), arbitrate_hlt]
    rfl
  · rw [arbitrate_ehu]
    exact hltFrame_ehu_kept _ _ fun hn => (hair.mp hn).elim hl hl'
  · exact arbitrate_busy_some (hltFrame_port_busy hb)
  · rw [arbitrate_hlt, hget]
    exact if_pos hoff
  · have hz : (arbitrate (hltFrame (frameTaking s h) h)).hlt.get h =
        if state = .up then Hlt.buildRows rows s.ftu.frame positions (frameSent loaded rows s.ftu.frame s.sce.pos)
        else frameSent loaded rows s.ftu.frame s.sce.pos := by
      rw [arbitrate_hlt, hget]
      exact (if_neg hon).trans (buildFrame_eq ..)
    have hbody : frameBody s.ftu.frame r s.sce.pos = body := frameBody_eq ..
    refine ⟨frameSent loaded rows s.ftu.frame s.sce.pos, enqueue_eq .., fun hn => ?_, fun hn => ?_, fun hu => ?_, fun hu => ?_⟩
    · obtain ⟨k, hb, hsum, -⟩ := begin_eq (framing loaded rows s.sce.pos) ⟨none, frameBody s.ftu.frame r s.sce.pos⟩
      have hsent : frameSent loaded rows s.ftu.frame s.sce.pos = _ :=
        (enqueue_begins (x := framing loaded rows s.sce.pos) ⟨none, frameBody s.ftu.frame r s.sce.pos⟩ hn).trans hb
      rw [hsent, ← hbody]
      exact ⟨rfl, k, rfl, hsum rfl⟩
    · have hsent : frameSent loaded rows s.ftu.frame s.sce.pos = _ :=
        enqueue_waits (x := framing loaded rows s.sce.pos) ⟨none, frameBody s.ftu.frame r s.sce.pos⟩ hn
      rw [hsent, ← hbody]
      exact ⟨rfl, rfl⟩
    · exact hz.trans (if_pos hu)
    · exact hz.trans (if_neg hu)

end Sys2Proof.Machine

/-! The receiver of a head's ACKs, and a valid ACK taken (R139, R155, R157, R158). -/

namespace Sys2Proof.Machine

open Sys2Proof.Config

/-! ## What the receiver holds (R139) -/

/-- What the receiver examines when a byte has come: one too late begins afresh (R139). -/
def ackExamined (p : List (Nat × Byte)) (time : Nat) (data : Byte) : List (Nat × Byte) :=
  ackScan ((if lastTime p + ackGap < time then [] else p) ++ [(time, data)])

theorem ackBegins_cons {b : Nat × Byte} {rest : List (Nat × Byte)} : ackBegins (b :: rest) ↔
    b.2 = 0xC3 ∧ (match rest with | [] => true | c :: _ => c.2 == 7) = true := by
  cases rest <;> simp [ackBegins]

theorem ackScan_of_begins {b : Nat × Byte} {rest : List (Nat × Byte)} (h : ackBegins (b :: rest)) :
    ackScan (b :: rest) = b :: rest := by
  have hb := ackBegins_cons.mp h
  cases rest <;> exact if_pos hb

theorem ackScan_of_not_begins {b : Nat × Byte} {rest : List (Nat × Byte)} (h : ¬ackBegins (b :: rest)) :
    ackScan (b :: rest) = ackScan rest := by
  have hb := mt ackBegins_cons.mpr h
  cases rest <;> exact if_neg hb

theorem ackScan_one (b : Nat × Byte) : ackScan [b] = if b.2 = 0xC3 then [b] else [] := by
  simp [ackScan]

/-- The bytes kept are those from the first place on at which an ACK may begin (R139). -/
theorem ackScan_eq_drop (l : List (Nat × Byte)) : ∃ n, n ≤ l.length ∧ ackScan l = l.drop n ∧ ackBegins (l.drop n) ∧
    ∀ m, m < n → ¬ackBegins (l.drop m) := by
  induction l with
  | nil => exact ⟨0, le_rfl, rfl, trivial, fun m hm => absurd hm (Nat.not_lt_zero m)⟩
  | cons b rest ih =>
    by_cases h : ackBegins (b :: rest)
    · exact ⟨0, Nat.zero_le _, ackScan_of_begins h, h, fun m hm => absurd hm (Nat.not_lt_zero m)⟩
    · obtain ⟨n, hn, he, hbeg, hmin⟩ := ih
      refine ⟨n + 1, Nat.succ_le_succ hn, (ackScan_of_not_begins h).trans he, hbeg, fun m hm => ?_⟩
      cases m with
      | zero => exact h
      | succ m => exact hmin m (Nat.lt_of_succ_lt_succ hm)

theorem ackExamined_fresh {p : List (Nat × Byte)} {time : Nat} {data : Byte} (h : p = [] ∨ lastTime p + 100 < time) :
    ackExamined p time data = if data = 0xC3 then [(time, data)] else [] := by
  have he : (if lastTime p + ackGap < time then [] else p) = [] := by
    rcases h with rfl | h
    · exact ite_self _
    · exact if_pos h
  rw [ackExamined, he]
  exact ackScan_one _

theorem ackExamined_inTime {p : List (Nat × Byte)} {time : Nat} (h : time ≤ lastTime p + 100) (data : Byte) :
    ackExamined p time data = ackScan (p ++ [(time, data)]) := by
  have he : (if lastTime p + ackGap < time then [] else p) = p := if_neg (Nat.not_lt.mpr h)
  rw [ackExamined, he]

/-! ## A byte at the receiver (R139) -/

section
variable {s : State} {h : Head}

/-- The transmitter's receiver holds these bytes (R139). -/
def ackHolding (s : State) (h : Head) (p : List (Nat × Byte)) : State := s.withHead h { s.hlt.get h with ackParser := p }

theorem ackByte_framing {b : RxByte} (hf : b.framing = true) : ackByte h s b = ackHolding s h [] := if_pos hf

theorem ackByte_holds {b : RxByte} (hf : b.framing = false) {q : List (Nat × Byte)}
    (hq : ackExamined (s.hlt.get h).ackParser b.time b.data = q) (hl : q.length ≤ 6) : ackByte h s b = ackHolding s h q := by
  have hn : ∀ b0 b1 b2 b3 b4 b5 b6, q ≠ [b0, b1, b2, b3, b4, b5, b6] := by
    rintro b0 b1 b2 b3 b4 b5 b6 rfl
    simp at hl
  subst hq
  unfold ackExamined at hn
  rw [ackByte, if_neg (by simp [hf])]
  split
  · next h7 => exact absurd h7 (hn _ _ _ _ _ _ _)
  · rfl

theorem ackByte_ends {b : RxByte} {b0 b1 b2 b3 b4 b5 b6 : Nat × Byte} (hf : b.framing = false)
    (hq : ackExamined (s.hlt.get h).ackParser b.time b.data = [b0, b1, b2, b3, b4, b5, b6]) : ackByte h s b =
      if b0.2 + b1.2 + b2.2 + b3.2 + b4.2 + b5.2 + b6.2 = 0
        then takeAck (ackHolding s h []) h (b2.2.setWidth 16 ||| (b3.2.setWidth 16 <<< 8)) b4.2 (b5.2.getLsbD 0)
        else ackHolding s h (ackScan [b1, b2, b3, b4, b5, b6]) := by
  have hsum : byteSum [b0.2, b1.2, b2.2, b3.2, b4.2, b5.2, b6.2] = b0.2 + b1.2 + b2.2 + b3.2 + b4.2 + b5.2 + b6.2 := by
    simp [byteSum]
  unfold ackExamined at hq
  rw [ackByte, if_neg (by simp [hf]), hq]
  dsimp only
  rw [hsum]
  rfl

end

/-! ## A valid ACK (R155, R157, R158) -/

theorem staleAll_staleAll (view : List ViewEntry) : staleAll (staleAll view) = staleAll view := by
  simp [staleAll]

/-- An ACK stales the whole view: the head was not UP, its rejected count has changed, or it is not ready (R155, R158). -/
def ackStales (x : Hlt) (count : Byte) (ready : Bool) : Prop :=
  x.state ≠ .up ∨ (∃ c, x.rejected = some c ∧ c ≠ count) ∨ ready = false

/-- The transmitter after a valid ACK, its view staled or not (R157). -/
def acked (x : Hlt) (drawn : Half) (count : Byte) (stale : Bool) : Hlt :=
  { x with
    state := .up, lastAck := some drawn, rejected := some count
    view := if stale then staleAll x.view else x.view
    staleDue := stale || x.staleDue }

theorem acked_fullStale (x : Hlt) (drawn : Half) (count : Byte) (stale : Bool) :
    (acked x drawn count stale).fullStale = acked x drawn count true := by
  cases stale with
  | false => rfl
  | true => simp [acked, Hlt.fullStale, staleAll_staleAll]

/-- The comparison of the rejected count stales an UP head's view when the count has changed (R158). -/
def countChanged (x : Hlt) (count : Byte) : Bool := x.rejected.any (· != count)

theorem countChanged_iff {x : Hlt} {count : Byte} : countChanged x count = true ↔ ∃ c, x.rejected = some c ∧ c ≠ count := by
  simp [countChanged, Option.any_eq_true]

theorem compareRejected_eq (x : Hlt) (drawn : Half) (count : Byte) :
    Hlt.compareRejected { x with lastAck := some drawn, state := .up } count = acked x drawn count (countChanged x count) := by
  unfold Hlt.compareRejected countChanged
  cases hr : x.rejected with
  | none => rfl
  | some c =>
    dsimp only
    by_cases hc : c = count
    · subst hc
      simp [acked]
    · simp [hc, acked, Hlt.fullStale]

theorem acked_of_fullStale (x : Hlt) (drawn : Half) (count : Byte) (stale : Bool) :
    acked x.fullStale drawn count stale = acked x drawn count true := by
  cases stale <;> simp [acked, Hlt.fullStale, staleAll_staleAll]

/-- What an ACK makes of the transmitter, whatever the head's state was (R157, R158). -/
def ackTaken (x : Hlt) (drawn : Half) (count : Byte) : Hlt :=
  let y := { x with lastAck := some drawn }
  match x.state with
  | .silent => Hlt.fullStale { y with state := .up, rejected := some count }
  | .stalled => Hlt.compareRejected (Hlt.fullStale { y with state := .up }) count
  | .up => y.compareRejected count

theorem ackTaken_eq (x : Hlt) (drawn : Half) (count : Byte) :
    ackTaken x drawn count = acked x drawn count (x.state != .up || countChanged x count) := by
  unfold ackTaken
  cases hs : x.state with
  | silent => exact acked_fullStale x drawn count false
  | stalled => exact (compareRejected_eq x.fullStale drawn count).trans (acked_of_fullStale ..)
  | up => exact compareRejected_eq x drawn count

/-- The transmitter once the head's ready flag has been judged as well (R157). -/
def ackEnds (x : Hlt) (drawn : Half) (count : Byte) (ready : Bool) : Hlt :=
  if ready then ackTaken x drawn count else (ackTaken x drawn count).fullStale

theorem ackEnds_eq (x : Hlt) (drawn : Half) (count : Byte) (ready : Bool) :
    ackEnds x drawn count ready = acked x drawn count (x.state != .up || countChanged x count || !ready) := by
  rw [ackEnds, ackTaken_eq]
  cases ready with
  | true => simp
  | false => simp [acked_fullStale]

theorem ackStales_iff (x : Hlt) (count : Byte) (ready : Bool) :
    (x.state != .up || countChanged x count || !ready) = true ↔ ackStales x count ready := by
  simp only [Bool.or_eq_true, bne_iff_ne, countChanged_iff, Bool.not_eq_true', ackStales, or_assoc]

theorem takeAck_off {s : State} {h : Head} (ho : (s.hlt.get h).route.source = .off) (d : Half) (n : Byte) (ready : Bool) :
    takeAck s h d n ready = s := if_pos ho

/-- A valid ACK of a head that is not OFF (R157, R158). -/
theorem takeAck_on {s : State} {h : Head} (ho : (s.hlt.get h).route.source ≠ .off) (d : Half) (n : Byte) (ready : Bool) :
    takeAck s h d n ready = raiseAll
      (s.withHead h (acked (s.hlt.get h) d n ((s.hlt.get h).state != .up || countChanged (s.hlt.get h) n || !ready)))
      (if (s.hlt.get h).state = .up then [] else [.headState h .up (s.ftu.frame - d).toNat]) := by
  refine (if_neg ho).trans ?_
  change (if (s.hlt.get h).state = .up then s.withHead h (ackEnds (s.hlt.get h) d n ready)
    else raise (s.withHead h (ackEnds (s.hlt.get h) d n ready)) (.headState h .up (lagOf s.ftu.frame (ackEnds (s.hlt.get h) d n ready)))) = _
  rw [ackEnds_eq]
  split <;> rfl

theorem setWidth_or_shift (a b : Byte) : (a.setWidth 16 ||| (b.setWidth 16 <<< 8) : Half) = .ofNat 16 (a.toNat + 256 * b.toNat) := by
  have ha := a.isLt
  have hb := b.isLt
  refine BitVec.eq_of_toNat_eq ?_
  have hs : b.toNat <<< 8 ||| a.toNat = 256 * b.toNat + a.toNat := by
    rw [← Nat.shiftLeft_add_eq_or_of_lt ha, Nat.shiftLeft_eq]
    omega
  simp only [BitVec.toNat_or, BitVec.toNat_shiftLeft, BitVec.toNat_setWidth, BitVec.toNat_ofNat]
  rw [Nat.mod_eq_of_lt (by omega : a.toNat < 2 ^ 16), Nat.mod_eq_of_lt (by omega : b.toNat < 2 ^ 16),
    Nat.mod_eq_of_lt (by rw [Nat.shiftLeft_eq]; omega), Nat.or_comm, hs]
  omega

end Sys2Proof.Machine

/-! The statement on the ACKs from the heads and the messages to them (R138, R139, R142, R155, R157 to R159, R163 to R165). -/

namespace Sys2Proof.Machine

open Sys2Proof.Config

/-! ## The bytes of one command (R139) -/

/-- The bytes of a HEAD_ACK run through the receiver (R139). -/
def ackRun (h : Head) (bytes : List RxByte) (s : State) : State :=
  bytes.foldl (fun s b => ackByte h (s.withFtu (s.ftu.reach b.time)) b) s

/-- The clock has come this far (R127). -/
def clocked (s : State) (micros : Nat) : State := s.withFtu { s.ftu with micros := micros }

/-- The receiver holds these bytes, the clock having come this far (R139). -/
def ackReached (s : State) (h : Head) (micros : Nat) (p : List (Nat × Byte)) : State :=
  (s.withFtu { s.ftu with micros := micros }).withHead h { s.hlt.get h with ackParser := p }

section
variable {s : State} {h : Head}

theorem ackReached_get (m : Nat) (p : List (Nat × Byte)) : (ackReached s h m p).hlt.get h = { s.hlt.get h with ackParser := p } :=
  Quad.get_set ..

theorem ackHolding_reached (m t : Nat) (p q : List (Nat × Byte)) :
    ackHolding ((ackReached s h m p).withFtu ((ackReached s h m p).ftu.reach t)) h q = ackReached s h (max m t) q := by
  have hg : ((ackReached s h m p).withFtu ((ackReached s h m p).ftu.reach t)).hlt.get h = { s.hlt.get h with ackParser := p } :=
    ackReached_get m p
  rw [ackHolding, hg]
  show (s.withFtu { s.ftu with micros := max m t }).withHlt ((s.hlt.set h _).set h _) = _
  rw [Quad.set_set]
  rfl

/-- One more byte is stored (R139). -/
theorem ackRun_stores {m : Nat} {p q : List (Nat × Byte)} {b : RxByte} (hf : b.framing = false) (hq : ackExamined p b.time b.data = q)
    (hl : q.length ≤ 6) (rest : List RxByte) :
    ackRun h (b :: rest) (ackReached s h m p) = ackRun h rest (ackReached s h (max m b.time) q) := by
  have hp : (((ackReached s h m p).withFtu ((ackReached s h m p).ftu.reach b.time)).hlt.get h).ackParser = p :=
    congrArg Hlt.ackParser (ackReached_get m p)
  rw [ackRun, List.foldl_cons, ackByte_holds hf (by rw [hp]; exact hq) hl, ackHolding_reached, ← ackRun]

theorem ackReached_none {m : Nat} (hp : (s.hlt.get h).ackParser = []) : ackReached s h m [] = clocked s m := by
  rw [ackReached, ← hp, State.withHead, State.withFtu_hlt, Quad.set_get_self]
  rfl

/-- The seventh byte of a valid ACK ends it (R139, R157). -/
theorem ackRun_ends {m : Nat} {p : List (Nat × Byte)} {b : RxByte} {b0 b1 b2 b3 b4 b5 b6 : Nat × Byte} (hp : (s.hlt.get h).ackParser = [])
    (hf : b.framing = false) (hq : ackExamined p b.time b.data = [b0, b1, b2, b3, b4, b5, b6])
    (hsum : b0.2 + b1.2 + b2.2 + b3.2 + b4.2 + b5.2 + b6.2 = 0) : ackRun h [b] (ackReached s h m p) =
      takeAck (clocked s (max m b.time)) h (.ofNat 16 (b2.2.toNat + 256 * b3.2.toNat)) b4.2 (b5.2.getLsbD 0) := by
  have hparser : (((ackReached s h m p).withFtu ((ackReached s h m p).ftu.reach b.time)).hlt.get h).ackParser = p :=
    congrArg Hlt.ackParser (ackReached_get m p)
  rw [ackRun, List.foldl_cons, ackByte_ends hf (by rw [hparser]; exact hq), if_pos hsum, ackHolding_reached, ackReached_none hp,
    setWidth_or_shift]
  rfl

end

/-- Seven bytes with no gap and sum 0 are a valid ACK (R139). -/
theorem ackRun_valid {s : State} {h : Head} {t0 t1 t2 t3 t4 t5 t6 : Nat} {f0 f1 count flags k : Byte}
    (hp : (s.hlt.get h).ackParser = []) (g1 : t1 ≤ t0 + 100) (g2 : t2 ≤ t1 + 100) (g3 : t3 ≤ t2 + 100) (g4 : t4 ≤ t3 + 100)
    (g5 : t5 ≤ t4 + 100) (g6 : t6 ≤ t5 + 100) (hsum : 0xC3 + 7 + f0 + f1 + count + flags + k = 0) :
    ackRun h [⟨t0, 0xC3, false⟩, ⟨t1, 7, false⟩, ⟨t2, f0, false⟩, ⟨t3, f1, false⟩, ⟨t4, count, false⟩, ⟨t5, flags, false⟩,
        ⟨t6, k, false⟩] s =
      takeAck (clocked s ([t0, t1, t2, t3, t4, t5, t6].foldl max s.ftu.micros)) h
        (.ofNat 16 (f0.toNat + 256 * f1.toNat)) count (flags.getLsbD 0) := by
  have h0 : s = ackReached s h s.ftu.micros [] := (ackReached_none hp).symm
  have more {p : List (Nat × Byte)} {t : Nat} {d : Byte} (hg : t ≤ lastTime ((t0, 0xC3) :: (t1, 7) :: p) + 100) :
      ackExamined ((t0, 0xC3) :: (t1, 7) :: p) t d = (t0, 0xC3) :: (t1, 7) :: (p ++ [(t, d)]) :=
    (ackExamined_inTime hg d).trans (ackScan_of_begins ⟨rfl, fun c hc => by cases hc; rfl⟩)
  have second : ackExamined [(t0, 0xC3)] t1 7 = [(t0, 0xC3), (t1, 7)] :=
    (ackExamined_inTime g1 7).trans (ackScan_of_begins ⟨rfl, fun c hc => by cases hc; rfl⟩)
  conv_lhs => rw [h0]
  rw [ackRun_stores rfl (ackExamined_fresh (.inl rfl)) (by simp), if_pos rfl, ackRun_stores rfl second (by simp),
    ackRun_stores rfl (more g2) (by simp), ackRun_stores rfl (more g3) (by simp), ackRun_stores rfl (more g4) (by simp),
    ackRun_stores rfl (more g5) (by simp)]
  exact ackRun_ends (b0 := (t0, 0xC3)) (b1 := (t1, 7)) (b2 := (t2, f0)) (b3 := (t3, f1)) (b4 := (t4, count)) (b5 := (t5, flags))
    (b6 := (t6, k)) hp rfl (more g6) hsum

/-! ## A valid ACK (R157, R158) -/

/-- The ACK stales the whole view, said with the stages of R157 and R158. -/
def ackStale (x : Hlt) (count : Byte) (ready : Bool) : Bool := x.state != .up || countChanged x count || !ready

/-- The events of a valid ACK (R157). -/
def ackEvents (s : State) (h : Head) (drawn : Half) : List Event :=
  if (s.hlt.get h).state = .up then [] else [.headState h .up (s.ftu.frame - drawn).toNat]

/-- A valid ACK has been taken from a head that is not OFF, at this time (R157, R158). -/
def ackedAt (s : State) (h : Head) (m : Nat) (drawn : Half) (count : Byte) (ready : Bool) : State :=
  raiseAll ((clocked s m).withHead h (acked (s.hlt.get h) drawn count (ackStale (s.hlt.get h) count ready))) (ackEvents s h drawn)

section
variable {s : State} {h : Head} (m : Nat) (drawn : Half) (count : Byte) (ready : Bool)

theorem takeAck_clocked_off (ho : (s.hlt.get h).route.source = .off) : takeAck (clocked s m) h drawn count ready = clocked s m :=
  takeAck_off (s := clocked s m) ho drawn count ready

theorem takeAck_clocked (ho : (s.hlt.get h).route.source ≠ .off) :
    takeAck (clocked s m) h drawn count ready = ackedAt s h m drawn count ready :=
  takeAck_on (s := clocked s m) ho drawn count ready

theorem writes_ackedAt : Writes [.hlt, .ftu] s (ackedAt s h m drawn count ready) :=
  (((Writes.refl _ s).withFtu _ (by decide)).withHead h _ (by decide)).raiseAll _

theorem ackedAt_hlt : (ackedAt s h m drawn count ready).hlt =
    s.hlt.set h (acked (s.hlt.get h) drawn count (ackStale (s.hlt.get h) count ready)) := by
  rw [ackedAt, raiseAll_hlt]
  rfl

theorem ackedAt_raises : onlyRaises [.hlt, .ftu] (ackEvents s h drawn) s (arbitrate (ackedAt s h m drawn count ready)) := by
  refine (writes_ackedAt m drawn count ready).onlyRaises_arbitrate ?_
  rw [ackedAt, raiseAll_sru, acceptAll_congr (raiseAll_ftu ..)]
  rfl

end

/-! ## One byte (R139) -/

section
variable {s : State} {h : Head} {time : Nat} {data : Byte}

/-- A byte that only changes what the receiver holds (R139). -/
theorem ackHeld_of {framing : Bool} {q : List (Nat × Byte)}
    (hb : ackByte h (s.withFtu (s.ftu.reach time)) ⟨time, data, framing⟩ = ackHolding (s.withFtu (s.ftu.reach time)) h q) :
    ackHeld s h time q (arbitrate (ackRun h [⟨time, data, framing⟩] s)) := by
  have hu : ackRun h [⟨time, data, framing⟩] s = ackHolding (s.withFtu (s.ftu.reach time)) h q := hb
  have hw : Writes [.hlt, .ftu] s (ackHolding (s.withFtu (s.ftu.reach time)) h q) :=
    ((Writes.refl _ s).withFtu _ (by decide)).withHead _ _ (by decide)
  rw [hu]
  exact ⟨hw.onlyChanges_arbitrate (.inr rfl), arbitrate_ftu _, arbitrate_hlt _⟩

/-- A byte without a framing error, after which no ACK is whole, leaves what was examined (R139). -/
theorem ackHeld_examined {q : List (Nat × Byte)} (hq : ackExamined (s.hlt.get h).ackParser time data = q) (hl : q.length ≤ 6) :
    ackHeld s h time q (arbitrate (ackRun h [⟨time, data, false⟩] s)) :=
  ackHeld_of (ackByte_holds (s := s.withFtu (s.ftu.reach time)) (b := ⟨time, data, false⟩) rfl hq hl)

end

theorem hunted_length (time : Nat) (data : Byte) : (if data = 0xC3 then [(time, data)] else []).length ≤ 6 := by
  split <;> simp

/-! ## The message on the line (R138, R164) -/

/-- The inject count that remains when a message has been sent (R164). -/
def injectLeft (x : Hlt) (m : Sending) : Nat := if m.injected then x.inject - 1 else x.inject

theorem sent_last {x : Hlt} {m : Sending} (h : x.queued = []) : x.sent m = { x with sending := none, inject := injectLeft x m } := by
  unfold Hlt.sent injectLeft
  dsimp only
  rw [h]

theorem sent_next {x : Hlt} {m : Sending} {n : HeadMsg} {rest : List HeadMsg} (h : x.queued = n :: rest) : x.sent m =
    Hlt.begin { x with sending := none, inject := injectLeft x m, queued := rest } n := by
  unfold Hlt.sent injectLeft
  dsimp only
  rw [h]

/-- The event of an injected message, the last of its count (R165). -/
def injectEvents (x : Hlt) (h : Head) (m : Sending) : List Event :=
  if m.injected = true ∧ x.inject = 1 then [.injectDone h x.injectLoaded] else []

theorem messageSent_eq (s : State) (h : Head) (m : Sending) :
    (if m.injected = true ∧ (s.hlt.get h).inject = 1
      then raise (s.withHead h ((s.hlt.get h).sent m)) (.injectDone h (s.hlt.get h).injectLoaded)
      else s.withHead h ((s.hlt.get h).sent m)) =
    raiseAll (s.withHead h ((s.hlt.get h).sent m)) (injectEvents (s.hlt.get h) h m) := by
  unfold injectEvents
  split <;> rfl

/-! ## The obligation -/

/-- Settles O48. -/
theorem acksAndMessages : Obligations.AcksAndMessages := by
  refine ⟨fun s h t0 t1 t2 t3 t4 t5 t6 f0 f1 count flags k hr hp g1 g2 g3 g4 g5 g6 hsum => ?_, fun s h time data framing hr => ?_,
    fun s h bytes hr => if_neg hr, fun s h m hm => ?_, fun s h hn => ?_⟩
  · intro x drawn stale
    have ha := Acts.headAck (s := s) h [⟨t0, 0xC3, false⟩, ⟨t1, 7, false⟩, ⟨t2, f0, false⟩, ⟨t3, f1, false⟩, ⟨t4, count, false⟩,
      ⟨t5, flags, false⟩, ⟨t6, k, false⟩] hr
    change Acts s _ false (ackRun h _ s) at ha
    rw [ackRun_valid hp g1 g2 g3 g4 g5 g6 hsum] at ha
    have hstale : ackStale x count (flags.getLsbD 0) = true ↔ stale := ackStales_iff x count (flags.getLsbD 0)
    refine ⟨arbitrate _, exec_of_acts ha, ?_, fun ho => ?_, fun ho => ?_⟩
    · rw [arbitrate_ftu, (writes_takeAck ..).ftu (by decide)]
      rfl
    · rw [takeAck_clocked_off _ _ _ _ ho]
      exact (writes_withFtu s _).onlyChanges_arbitrate (.inr rfl)
    · rw [takeAck_clocked _ _ _ _ ho, arbitrate_hlt, ackedAt_hlt, Quad.get_set]
      refine ⟨ackedAt_raises _ _ _ _, rfl, fun hs => ?_, fun hs => ?_⟩
      · rw [hstale.mpr hs]
        exact ⟨rfl, rfl⟩
      · rw [Bool.eq_false_iff.mpr (mt hstale.mp hs)]
        exact ⟨rfl, rfl⟩
  · intro p hunted
    refine ⟨arbitrate _, exec_of_acts (Acts.headAck h _ hr), fun hf => ?_, fun hf hfresh => ?_, fun b0 hf hpar h0 ht => ⟨fun hd => ?_, fun hd => ?_⟩,
      fun b0 b1 more hf hpar h0 h1 hl ht => ?_, fun b0 b1 b2 b3 b4 b5 hf hpar h0 h1 ht hsum => ?_⟩
    all_goals subst hf
    · exact ackHeld_of (ackByte_framing rfl)
    · exact ackHeld_examined (ackExamined_fresh hfresh) (hunted_length ..)
    · have he := (ackExamined_inTime (p := [b0]) (time := time) ht data).trans
        (ackScan_of_begins ⟨h0, fun c hc => by cases hc; exact hd⟩)
      rw [← hpar] at he
      exact ackHeld_examined he (by simp)
    · have he := (ackExamined_inTime (p := [b0]) (time := time) ht data).trans
        ((ackScan_of_not_begins fun hn => hd (hn.2 _ rfl)).trans (ackScan_one _))
      rw [← hpar] at he
      exact ackHeld_examined he (hunted_length ..)
    · have hq : ackScan (p ++ [(time, data)]) = p ++ [(time, data)] := by
        rw [hpar]
        exact ackScan_of_begins ⟨h0, fun c hc => by cases hc; exact h1⟩
      exact ackHeld_examined ((ackExamined_inTime ht data).trans hq) (by rw [hpar]; simp; omega)
    · obtain ⟨n, hn, he, hbeg, hmin⟩ := ackScan_eq_drop [b1, b2, b3, b4, b5, (time, data)]
      have hex := (ackExamined_inTime (p := [b0, b1, b2, b3, b4, b5]) (time := time) ht data).trans
        (ackScan_of_begins ⟨h0, fun c hc => by cases hc; exact h1⟩)
      rw [← hpar] at hex
      have hb := ackByte_ends (s := s.withFtu (s.ftu.reach time)) (b := ⟨time, data, false⟩) rfl hex
      rw [if_neg hsum, he] at hb
      exact ⟨n, hn, ackHeld_of hb, hbeg, hmin⟩
  · intro x left
    have ha := Acts.messageSent hm
    rw [messageSent_eq] at ha
    obtain ⟨he, hc⟩ := ha.raises (bs := [.hlt]) (es := injectEvents x h m) ((writes_withHead s h _).raiseAll _)
      (by rw [raiseAll_sru, acceptAll_congr (raiseAll_ftu ..)]; rfl)
    refine ⟨_, he, hc, fun hq => ?_, fun n rest hq => ?_⟩
    all_goals rw [arbitrate_hlt, raiseAll_hlt, State.withHead_hlt]
    · rw [sent_last hq]
      rfl
    · obtain ⟨check, hb, h0, h1⟩ := begin_eq { x with sending := none, inject := left, queued := rest } n
      refine ⟨check, _, (congrArg (s.hlt.set h) ((sent_next hq).trans hb)), ?_, h0, h1⟩
      simp
  · rw [show exec (.messageSent h) s = execMessageSent h s from rfl, execMessageSent, hn]

end Sys2Proof.Machine
